-- ==== Sys2Proof/Word.lean ====
section
/-! DEFINITION. The two word sizes of the spec (00_scope.md R12): a byte and a 32-bit word. -/

namespace Sys2Proof

/-- "A byte is an 8-bit unsigned value" (R12). -/
abbrev Byte := BitVec 8

/-- "A word is a 32-bit unsigned value" (R12). -/
abbrev Word := BitVec 32

end Sys2Proof
end

