-- ==== Sys2Proof/Machine/Bytes.lean ====
section
/-! DEFINITION. Byte strings and words: the byte orders the spec uses (00_scope.md R13, 20_memory.md R61,
R62; big-endian inside SHA-1, log entry 2). -/

namespace Sys2Proof.Machine

/-- A byte string (R13). -/
abbrev Bytes := List Byte

/-- Byte k of a word, `w[8k+7:8k]` (R12, R61). -/
def byteOf (w : Word) (k : Nat) : Byte := w.extractLsb' (8 * k) 8

/-- `le32(b0,b1,b2,b3) = b0 | b1<<8 | b2<<16 | b3<<24` (R13). -/
def le32 (b0 b1 b2 b3 : Byte) : Word :=
  b0.setWidth 32 ||| (b1.setWidth 32 <<< 8) ||| (b2.setWidth 32 <<< 16) ||| (b3.setWidth 32 <<< 24)

/-- `bytes_le32(w) = (w[7:0], w[15:8], w[23:16], w[31:24])` (R13). -/
def bytesLe32 (w : Word) : Bytes := [byteOf w 0, byteOf w 1, byteOf w 2, byteOf w 3]

/-- The big-endian word of four bytes, as SHA-1 reads its blocks. PRESUMED (FIPS 180), log entry 2. -/
def be32 (b0 b1 b2 b3 : Byte) : Word := le32 b3 b2 b1 b0

/-- The four bytes of a word, most significant first, as SHA-1 writes its digest. PRESUMED (FIPS 180),
log entry 2. -/
def bytesBe32 (w : Word) : Bytes := [byteOf w 3, byteOf w 2, byteOf w 1, byteOf w 0]

/-- The number whose little-endian bytes are given. -/
def natOfBytes : Bytes → Nat
  | [] => 0
  | b :: bs => b.toNat + 256 * natOfBytes bs

/-- The n low bytes of a number, least significant first. -/
def bytesOfNat : Nat → Nat → Bytes
  | 0, _ => []
  | n + 1, w => BitVec.ofNat 8 w :: bytesOfNat n (w / 256)

/-- Byte-wise exclusive-or (R12); the result is as long as the shorter string. -/
def xorBytes (a b : Bytes) : Bytes := List.zipWith (· ^^^ ·) a b

end Sys2Proof.Machine
end

