-- ==== Sys2Proof/Syntax.lean ====
section
/-! DEFINITION. The generations, the host transaction (30_encoding.md R81), the registers of the window
(10_state.md R23) and the instructions: one constructor for each row of spec/opcode_table.json. -/

namespace Sys2Proof

/-- The key generations, "an enumerated value in {Gen1, Gen2, Gen3}" (00_scope.md R9, 30_encoding.md R86). -/
inductive Gen where
  | gen1
  | gen2
  | gen3
deriving DecidableEq, Repr, Inhabited

/-- DIR of a host transaction (R81). -/
inductive Dir where
  | read
  | write
deriving DecidableEq, Repr, Inhabited

/-- A host transaction as the host issues it (R81): DIR, SIZE, OFF, WDATA. -/
structure HT where
  dir : Dir
  size : BitVec 2
  off : BitVec 8
  wdata : Word
deriving DecidableEq, Repr, Inhabited

/-- The registers of the window (R23). An aligned offset OFF selects one of them; `reserved o` is the
reserved offset whose bits OFF[7:2] are `o`. -/
inductive Reg where
  | secbufW (i : Fin 12)
  | cmd
  | status
  | ctrl
  | id
  | ckPushw
  | ckPushb
  | ckCtrl
  | ckStat
  | ckSum
  | ckCarry
  | ckResult
  | reserved (o : BitVec 6)
deriving DecidableEq, Repr

/-- The instructions. The first four are the command words the ENGINE decodes at completion (R84, R88);
the others are the host transactions (R82). An operand is what the row's encoding leaves free; the bits
R81 and the table call ignored (WDATA of a read or of a malformed access) are no operand. -/
inductive Instr where
  -- command words (CW)
  | decrypt
  | encrypt (g : Gen)
  | encryptBadgen (gen : BitVec 8)
  | illegal (w : Word)
  -- host transactions (HT): cipher registers
  | secbufWr (i : Fin 12) (v : Word)
  | secbufRd (i : Fin 12)
  | cmdWr (v : Word)
  | cmdRd
  | statusRd
  | statusWr (v : Word)
  | ctrlRd
  | ctrlWr (v : Word)
  | idRd
  | idWr (v : Word)
  -- host transactions (HT): checksum unit
  | ckPushw (v : Word)
  | ckPushb (v : Word)
  | ckClear (v : Word)
  | ckWoRd (k : Fin 3)
  | ckStatRd
  | ckStatWr (v : Word)
  | ckSumRd
  | ckCarryRd
  | ckResultRd
  | ckRoWr (k : Fin 3) (v : Word)
  -- host transactions (HT): reserved offsets and malformed accesses
  | rsvRd (o : BitVec 6)
  | rsvWr (o : BitVec 6) (v : Word)
  | buserr (dir : Dir) (size : BitVec 2) (off : BitVec 8)
deriving DecidableEq, Repr

end Sys2Proof
end

