-- ==== Sys2Proof/WellFormed.lean ====
section
/-! DEFINITION. The constraints of spec/opcode_table.json that the operand types do not carry already:
which operands make an instruction of each row. -/

namespace Sys2Proof

/-- "any value outside {1,2,3}" (row ENCRYPT_BADGEN, 30_encoding.md R86). -/
def badGenCode (gen : BitVec 8) : Bool := !(gen = 1 || gen = 2 || gen = 3)

/-- The words of 41_section_cipher.md R149: "PEND with RSV != 0, or with OP not in {0x01, 0x02}, or with
OP = 0x01 and GEN != 0". -/
def illegalWord (w : Word) : Bool :=
  w.extractLsb' 16 16 != 0
    || (w.extractLsb' 0 8 != 1 && w.extractLsb' 0 8 != 2)
    || (w.extractLsb' 0 8 == 1 && w.extractLsb' 8 8 != 0)

/-- The reserved offsets 0x5C..0xFC (42_host_registers.md R193), by their bits OFF[7:2]. -/
def reservedIndex (o : BitVec 6) : Bool := 0x17 ≤ o.toNat

/-- "SIZE != 2 or OFF[1:0] != 0" (60_exceptions.md R214). -/
def malformedAccess (size : BitVec 2) (off : BitVec 8) : Bool :=
  size != 2 || off.extractLsb' 0 2 != 0

/-- The well-formed instructions: the constraint of each row of the opcode table. -/
def Instr.wf : Instr → Bool
  | .decrypt => true
  | .encrypt _ => true
  | .encryptBadgen gen => badGenCode gen
  | .illegal w => illegalWord w
  | .secbufWr _ _ => true
  | .secbufRd _ => true
  | .cmdWr _ => true
  | .cmdRd => true
  | .statusRd => true
  | .statusWr _ => true
  | .ctrlRd => true
  | .ctrlWr _ => true
  | .idRd => true
  | .idWr _ => true
  | .ckPushw _ => true
  | .ckPushb _ => true
  | .ckClear _ => true
  | .ckWoRd _ => true
  | .ckStatRd => true
  | .ckStatWr _ => true
  | .ckSumRd => true
  | .ckCarryRd => true
  | .ckResultRd => true
  | .ckRoWr _ _ => true
  | .rsvRd o => reservedIndex o
  | .rsvWr o _ => reservedIndex o
  | .buserr _ size off => malformedAccess size off

end Sys2Proof
end

