-- ==== Sys2Proof/Decode.lean ====
section
/-! DEFINITION. Decoding of command words and host transactions (30_encoding.md R80 to R90), and the
encoder of the same tables. -/

namespace Sys2Proof

open Machine

/-- The code of a generation, "Gen1 = 1, Gen2 = 2, Gen3 = 3" (R86). -/
def Gen.code : Gen → Nat
  | .gen1 => 1
  | .gen2 => 2
  | .gen3 => 3

/-- The generation of an 8-bit code; none for the codes R86 calls invalid. -/
def genOfCode (c : BitVec 8) : Option Gen :=
  if c = 1 then some .gen1
  else if c = 2 then some .gen2
  else if c = 3 then some .gen3
  else none

/-- OP, bits 7:0 of a command word (R83). -/
def cwOp (w : Word) : BitVec 8 := w.extractLsb' 0 8

/-- GEN, bits 15:8 of a command word (R83). -/
def cwGen (w : Word) : BitVec 8 := w.extractLsb' 8 8

/-- RSV, bits 31:16 of a command word (R83). -/
def cwRsv (w : Word) : BitVec 16 := w.extractLsb' 16 16

/-- The command decode function (R88), in its order of tests. -/
def decodeCW (w : Word) : Instr :=
  if cwRsv w ≠ 0 then .illegal w
  else if cwOp w = 0x01 then
    if cwGen w ≠ 0 then .illegal w else .decrypt
  else if cwOp w = 0x02 then
    match genOfCode (cwGen w) with
    | some g => .encrypt g
    | none => .encryptBadgen (cwGen w)
  else .illegal w

/-- The register whose offset has OFF[7:2] = o (10_state.md R23). -/
def regOfIndex (o : BitVec 6) : Reg :=
  if h : o.toNat < 12 then .secbufW ⟨o.toNat, h⟩
  else if o = 0x0C then .cmd
  else if o = 0x0D then .status
  else if o = 0x0E then .ctrl
  else if o = 0x0F then .id
  else if o = 0x10 then .ckPushw
  else if o = 0x11 then .ckPushb
  else if o = 0x12 then .ckCtrl
  else if o = 0x13 then .ckStat
  else if o = 0x14 then .ckSum
  else if o = 0x15 then .ckCarry
  else if o = 0x16 then .ckResult
  else .reserved o

/-- The operation that a read of a register selects (42_host_registers.md R180). -/
def readOp : Reg → Instr
  | .secbufW i => .secbufRd i
  | .cmd => .cmdRd
  | .status => .statusRd
  | .ctrl => .ctrlRd
  | .id => .idRd
  | .ckPushw => .ckWoRd 0
  | .ckPushb => .ckWoRd 1
  | .ckCtrl => .ckWoRd 2
  | .ckStat => .ckStatRd
  | .ckSum => .ckSumRd
  | .ckCarry => .ckCarryRd
  | .ckResult => .ckResultRd
  | .reserved o => .rsvRd o

/-- The operation that a write of v to a register selects (R180). -/
def writeOp (v : Word) : Reg → Instr
  | .secbufW i => .secbufWr i v
  | .cmd => .cmdWr v
  | .status => .statusWr v
  | .ctrl => .ctrlWr v
  | .id => .idWr v
  | .ckPushw => .ckPushw v
  | .ckPushb => .ckPushb v
  | .ckCtrl => .ckClear v
  | .ckStat => .ckStatWr v
  | .ckSum => .ckRoWr 0 v
  | .ckCarry => .ckRoWr 1 v
  | .ckResult => .ckRoWr 2 v
  | .reserved o => .rsvWr o v

/-- HT decoding (R82): total, BusError first, then the register, then the operation. -/
def decodeHT (t : HT) : Instr :=
  if t.size ≠ 2 ∨ t.off.extractLsb' 0 2 ≠ 0 then .buserr t.dir t.size t.off
  else
    match t.dir with
    | .read => readOp (regOfIndex (t.off.extractLsb' 2 6))
    | .write => writeOp t.wdata (regOfIndex (t.off.extractLsb' 2 6))

/-- DIR as a bit: "0 = read, 1 = write" (R81). -/
def Dir.bit : Dir → BitVec 1
  | .read => 0
  | .write => 1

/-- DIR of a bit (R81). -/
def dirOfBit (b : BitVec 1) : Dir := if b = 1 then .write else .read

/-- The 43-bit pattern `DIR ‖ SIZE ‖ OFF ‖ WDATA`, most significant bit first (R81). -/
def HT.toPattern (t : HT) : BitVec 43 := t.dir.bit ++ t.size ++ t.off ++ t.wdata

/-- The transaction of a 43-bit pattern (R81). -/
def HT.ofPattern (p : BitVec 43) : HT :=
  ⟨dirOfBit (p.extractLsb' 42 1), p.extractLsb' 40 2, p.extractLsb' 32 8, p.extractLsb' 0 32⟩

/-- Why a byte string is neither a command word nor a transaction. -/
inductive DecodeError where
  /-- Neither the 4 bytes of a CW nor the 6 bytes that hold an HT pattern (R80, R90; log entry 9). -/
  | badLength (n : Nat)
  /-- A bit above bit 42 is set, so the 6 bytes are no 43-bit pattern (R81; log entry 9). -/
  | aboveBit42
deriving DecidableEq, Repr

/-- The decoder on bytes, the lowest address first: 4 bytes are a CW in little-endian order (20_memory.md
R62), 6 bytes hold an HT pattern. Log entry 9. -/
def decodeBytes (bs : Bytes) : Except DecodeError Instr :=
  if bs.length = 4 then .ok (decodeCW (BitVec.ofNat 32 (natOfBytes bs)))
  else if bs.length = 6 then
    if natOfBytes bs < 2 ^ 43 then .ok (decodeHT (.ofPattern (BitVec.ofNat 43 (natOfBytes bs))))
    else .error .aboveBit42
  else .error (.badLength bs.length)

/-- How many bytes the decoder is given for a table row of nbits bits: a CW row has 32 bits, an HT row
more (R80). Log entry 9. -/
def formatBytes (nbits : Nat) : Nat := if nbits ≤ 32 then 4 else 6

/-- The instruction the decoder reads from a table word (log entry 9). -/
def decodeTableWord (nbits w : Nat) : Option Instr :=
  match decodeBytes (bytesOfNat (formatBytes nbits) w) with
  | .ok i => some i
  | .error _ => none

/-! The encoder. -/

/-- OFF[7:2] of a register (R23). -/
def Reg.index : Reg → BitVec 6
  | .secbufW i => BitVec.ofNat 6 i.val
  | .cmd => 0x0C
  | .status => 0x0D
  | .ctrl => 0x0E
  | .id => 0x0F
  | .ckPushw => 0x10
  | .ckPushb => 0x11
  | .ckCtrl => 0x12
  | .ckStat => 0x13
  | .ckSum => 0x14
  | .ckCarry => 0x15
  | .ckResult => 0x16
  | .reserved o => o

/-- The write-only checksum ports of row CK_WO_RD, k = OFF[3:2] (R191). -/
def woPort (k : Fin 3) : Reg :=
  match k with
  | 0 => .ckPushw
  | 1 => .ckPushb
  | 2 => .ckCtrl

/-- The read-only checksum registers of row CK_RO_WR, k = OFF[3:2] (R192). -/
def roReg (k : Fin 3) : Reg :=
  match k with
  | 0 => .ckSum
  | 1 => .ckCarry
  | 2 => .ckResult

/-- The admitted read of a register, "WDATA (zero for reads)" (R81). -/
def readHT (r : Reg) : HT := ⟨.read, 2, r.index ++ (0 : BitVec 2), 0⟩

/-- The admitted write of v to a register (R81). -/
def writeHT (r : Reg) (v : Word) : HT := ⟨.write, 2, r.index ++ (0 : BitVec 2), v⟩

/-- A command word of its fields `RSV = 0 ‖ GEN ‖ OP` (R83). -/
def cwWord (gen op : BitVec 8) : Word := (0 : BitVec 16) ++ gen ++ op

/-- What an instruction is encoded as: a command word or a host transaction (R80). -/
inductive Code where
  | cw (w : Word)
  | ht (t : HT)
deriving DecidableEq, Repr

/-- The encoding of an instruction, from the table's rows (R81, R83, R84). -/
def Instr.code : Instr → Code
  | .decrypt => .cw (cwWord 0 0x01)
  | .encrypt g => .cw (cwWord (BitVec.ofNat 8 g.code) 0x02)
  | .encryptBadgen gen => .cw (cwWord gen 0x02)
  | .illegal w => .cw w
  | .secbufWr i v => .ht (writeHT (.secbufW i) v)
  | .secbufRd i => .ht (readHT (.secbufW i))
  | .cmdWr v => .ht (writeHT .cmd v)
  | .cmdRd => .ht (readHT .cmd)
  | .statusRd => .ht (readHT .status)
  | .statusWr v => .ht (writeHT .status v)
  | .ctrlRd => .ht (readHT .ctrl)
  | .ctrlWr v => .ht (writeHT .ctrl v)
  | .idRd => .ht (readHT .id)
  | .idWr v => .ht (writeHT .id v)
  | .ckPushw v => .ht (writeHT .ckPushw v)
  | .ckPushb v => .ht (writeHT .ckPushb v)
  | .ckClear v => .ht (writeHT .ckCtrl v)
  | .ckWoRd k => .ht (readHT (woPort k))
  | .ckStatRd => .ht (readHT .ckStat)
  | .ckStatWr v => .ht (writeHT .ckStat v)
  | .ckSumRd => .ht (readHT .ckSum)
  | .ckCarryRd => .ht (readHT .ckCarry)
  | .ckResultRd => .ht (readHT .ckResult)
  | .ckRoWr k v => .ht (writeHT (roReg k) v)
  | .rsvRd o => .ht (readHT (.reserved o))
  | .rsvWr o v => .ht (writeHT (.reserved o) v)
  | .buserr dir size off => .ht ⟨dir, size, off, 0⟩

/-- The bytes of a code, the lowest address first (log entry 9). -/
def Code.bytes : Code → Bytes
  | .cw w => bytesOfNat 4 w.toNat
  | .ht t => bytesOfNat 6 t.toPattern.toNat

/-- The bytes of an instruction. -/
def encode (i : Instr) : Bytes := i.code.bytes

end Sys2Proof
end

