-- ==== Sys2Proof/Config.lean ====
section
/-! DEFINITION. What one implementation fixes and the spec leaves open (00_scope.md R11, 10_state.md R46),
and the free values. Each is a constant with no body: nothing can be proved of its value. -/

namespace Sys2Proof

/-- ROOT_KEY of generation g, 16 bytes (R11, R43). "No source gives their values"; no rule depends on
distinctness, so nothing here says it. Log entry 1. -/
opaque Config.rootKey : Gen → Vector Byte 16

/-- The RC4 permutation S where `scrub()` and reset leave it unspecified (41_section_cipher.md R141,
10_state.md R45): a free value for each draw. Log entry 4. -/
opaque Config.unspecifiedS : Nat → Vector Byte 256

/-- BASE divided by 256: the window is "aligned to 256 bytes" (20_memory.md R68). Log entry 13. -/
opaque Config.basePage : Nat

/-- IRQ_LINE, the platform's interrupt line (60_exceptions.md R216). Log entry 13. -/
opaque Config.irqLine : Nat

/-- LAT_DEC(n) less one, for the DECRYPT whose last attempt is generation n (70_reset_and_hazards.md R255:
"All are at least 1 and finite"). Log entry 13. -/
opaque Config.extraDec : Gen → Nat

/-- LAT_ENC less one (R255). Log entry 13. -/
opaque Config.extraEnc : Nat

/-- LAT_ERR less one (R255). Log entry 13. -/
opaque Config.extraErr : Nat

/-- BASE (R68). -/
def Config.base : Nat := 256 * Config.basePage

/-- LAT_DEC (R255). No rule depends on it. -/
def Config.latDec (n : Gen) : Nat := Config.extraDec n + 1

/-- LAT_ENC (R255). No rule depends on it. -/
def Config.latEnc : Nat := Config.extraEnc + 1

/-- LAT_ERR (R255). No rule depends on it. -/
def Config.latErr : Nat := Config.extraErr + 1

end Sys2Proof
end

