-- ==== Sys2Proof/Machine/Primitives.lean ====
section
/-! DEFINITION. The two primitives of the cipher (41_section_cipher.md R130), bound to the spec's reference
definitions: HMAC20 (R131, over SHA-1) and RC4 (R132, R133). Log entries 2 and 3. Three definitions are
irreducible so that the elaborator never unrolls their loops; the kernel evaluates them as any other. -/

namespace Sys2Proof.Machine

/-! SHA-1, "the FIPS 180 hash with a 20-byte digest" (R131). Its inside is PRESUMED from FIPS 180; log entry 2. -/

/-- Rotation of a word to the left by n, 0 < n < 32. -/
def rotl (w : Word) (n : Nat) : Word := (w <<< n) ||| (w >>> (32 - n))

/-- The five chaining words of SHA-1. -/
structure Sha1 where
  a : Word
  b : Word
  c : Word
  d : Word
  e : Word
deriving DecidableEq, Repr

/-- The initial chaining value (FIPS 180). -/
def sha1Init : Sha1 := ⟨0x67452301, 0xEFCDAB89, 0x98BADCFE, 0x10325476, 0xC3D2E1F0⟩

/-- The round function and constant of round t (FIPS 180). -/
def sha1F (t : Nat) (b c d : Word) : Word :=
  if t < 20 then ((b &&& c) ||| (~~~b &&& d)) + 0x5A827999
  else if t < 40 then (b ^^^ c ^^^ d) + 0x6ED9EBA1
  else if t < 60 then ((b &&& c) ||| (b &&& d) ||| (c &&& d)) + 0x8F1BBCDC
  else (b ^^^ c ^^^ d) + 0xCA62C1D6

/-- Round t with schedule word w (FIPS 180). -/
def sha1Round (t : Nat) (w : Word) (s : Sha1) : Sha1 :=
  ⟨rotl s.a 5 + sha1F t s.b s.c s.d + s.e + w, s.a, rotl s.b 30, s.c, s.d⟩

/-- The next schedule word from the last sixteen, oldest first (FIPS 180). -/
def sha1Next (win : List Word) : Word :=
  rotl (win.getD 13 0 ^^^ win.getD 8 0 ^^^ win.getD 2 0 ^^^ win.getD 0 0) 1

/-- n rounds from round t on, with the window of the sixteen schedule words from t on. -/
def sha1Rounds : Nat → Nat → List Word → Sha1 → Sha1
  | 0, _, _, s => s
  | n + 1, t, win, s => sha1Rounds n (t + 1) (win.tail ++ [sha1Next win]) (sha1Round t (win.getD 0 0) s)

/-- Big-endian words of a byte string. -/
def wordsBe : Bytes → List Word
  | b0 :: b1 :: b2 :: b3 :: bs => be32 b0 b1 b2 b3 :: wordsBe bs
  | _ => []

/-- One 64-byte block (FIPS 180). -/
def sha1Block (h : Sha1) (block : Bytes) : Sha1 :=
  let r := sha1Rounds 80 0 (wordsBe block) h
  ⟨h.a + r.a, h.b + r.b, h.c + r.c, h.d + r.d, h.e + r.e⟩

/-- The n 64-byte blocks of a string, in order. -/
def sha1Blocks : Nat → Bytes → Sha1 → Sha1
  | 0, _, h => h
  | n + 1, bs, h => sha1Blocks n (bs.drop 64) (sha1Block h (bs.take 64))

/-- The padding of FIPS 180: 0x80, zeros up to 56 mod 64, the bit length as 64 bits, big-endian. -/
def sha1Pad (m : Bytes) : Bytes :=
  m ++ [0x80] ++ List.replicate ((119 - m.length % 64) % 64) 0 ++ (bytesOfNat 8 (8 * m.length)).reverse

/-- The digest bytes of the chaining words, 20 of them. -/
def Sha1.digest (h : Sha1) : Bytes :=
  bytesBe32 h.a ++ bytesBe32 h.b ++ bytesBe32 h.c ++ bytesBe32 h.d ++ bytesBe32 h.e

/-- SHA-1 of a byte string. -/
@[irreducible] def sha1 (m : Bytes) : Bytes :=
  (sha1Blocks ((sha1Pad m).length / 64) (sha1Pad m) sha1Init).digest

/-! HMAC20 (R131). -/

/-- K0, the key padded with zeros to the 64-byte block; "len(K) = 16 here, so K is never pre-hashed" (R131). -/
def hmacKey (k : Bytes) : Bytes := k ++ List.replicate (64 - k.length) 0

/-- `HMAC20(K, m) = SHA1( (K0 ^ opad) ‖ SHA1( (K0 ^ ipad) ‖ m ) )` (R131). -/
def hmac20 (k m : Bytes) : Bytes :=
  sha1 ((hmacKey k).map (· ^^^ 0x5C) ++ sha1 ((hmacKey k).map (· ^^^ 0x36) ++ m))

/-! RC4 (R132, R133). -/

/-- The table S and the indices i and j of RC4 (10_state.md R42). -/
structure Rc4 where
  s : Vector Byte 256
  i : Byte
  j : Byte
deriving DecidableEq, Repr

/-- S[x], for a byte x. -/
def sboxGet (s : Vector Byte 256) (x : Byte) : Byte := s[x.toNat]'x.isLt

/-- `swap S[x], S[y]` (R132, R133). -/
def sboxSwap (s : Vector Byte 256) (x y : Byte) : Vector Byte 256 :=
  (s.set x.toNat (sboxGet s y) x.isLt).set y.toNat (sboxGet s x) y.isLt

/-- The bytes 0, 1, ..., 255 in order. -/
@[irreducible] def allBytes : List Byte := (List.range 256).map (BitVec.ofNat 8)

/-- The identity table, `S[x] := x` (R132). -/
def sboxId : Vector Byte 256 := ⟨allBytes.toArray, by simp [allBytes]⟩

/-- One pass of the second loop of R132 at index x. -/
def ksaStep (k : Bytes) (sj : Vector Byte 256 × Byte) (x : Byte) : Vector Byte 256 × Byte :=
  let j := sj.2 + sboxGet sj.1 x + k.getD (x.toNat % k.length) 0
  (sboxSwap sj.1 x j, j)

/-- `RC4_KSA(k)` (R132). The spec's domain is 1 <= len(k) <= 256; log entry 16. -/
@[irreducible] def rc4Ksa (k : Bytes) : Rc4 := ⟨(allBytes.foldl (ksaStep k) (sboxId, 0)).1, 0, 0⟩

/-- `RC4_PRGA(S, i, j)`: the next state and the keystream byte (R133). -/
def rc4Prga (r : Rc4) : Rc4 × Byte :=
  let i := r.i + 1
  let j := r.j + sboxGet r.s i
  let s := sboxSwap r.s i j
  (⟨s, i, j⟩, sboxGet s (sboxGet s i + sboxGet s j))

/-- n keystream bytes from a state on (R133). -/
def rc4Stream : Nat → Rc4 → Bytes
  | 0, _ => []
  | n + 1, r => (rc4Prga r).2 :: rc4Stream n (rc4Prga r).1

/-- `RC4(k, d)`: "the first PRGA byte applies to d[0]", none discarded (R133). -/
def rc4 (k d : Bytes) : Bytes := xorBytes d (rc4Stream d.length (rc4Ksa k))

end Sys2Proof.Machine
end

