-- ==== Sys2Proof/Machine/State.lean ====
section
/-! DEFINITION. The state of the block (10_state.md), the model's own fields beside it, the two kinds of
stop, and the state after reset (10_state.md R45). -/

namespace Sys2Proof.Machine

/-- The model's faults: none. No rule of the spec stops the block: a BusError is a response and a next state
(60_exceptions.md R214), and a command's error is an outcome code and a next state (R210). Nothing raises a
fault, which is safe: there is no behaviour it could hide. -/
inductive Fault where
deriving DecidableEq, Repr

/-- The model's refusals. -/
inductive Refusal where
  /-- An instruction without a meaning, raised only in an arm of `exec`; safe, since the model stops. No arm
  raises it: every row of the opcode table has its meaning. -/
  | notModelled (mnemonic : String)
deriving DecidableEq, Repr

/-- The byte storage of the window, SECBUF at offsets 0x00..0x2F: (address, byte) cells with strictly rising
addresses below 48 and no zero byte. An unlisted address reads 0x00, the reset contents of R45. Log entry 15. -/
abbrev Memory := List Host.Cell

/-- The engine's phase (R41). STATUS.BUSY is its host-visible view: "ENG = BUSY exactly when STATUS.BUSY = 1". -/
inductive EngPhase where
  | idle
  | busy
deriving DecidableEq, Repr

/-- STATUS.ERR, the outcome codes of 60_exceptions.md R210. "The values 4..15 are never produced" (R28).
Log entry 18. -/
inductive ErrCode where
  | ok
  | verificationFailed
  | invalidGeneration
  | illegalCommand
deriving DecidableEq, Repr

/-- CK_BBUF, three bytes (R36). -/
structure ByteLane where
  b0 : Byte
  b1 : Byte
  b2 : Byte
deriving DecidableEq, Repr

/-- KEYROM, the three 16-byte root keys (R43). -/
structure KeyRom where
  key1 : Vector Byte 16
  key2 : Vector Byte 16
  key3 : Vector Byte 16
deriving DecidableEq, Repr

/-- What the bus returns for an HT (30_encoding.md R81): RESP = OKAY with RDATA, RESP = OKAY of a write, or
RESP = ERROR of `raise BusError(off)`, where "a read returns no data" and "the window offset is the only
information the block gives" (60_exceptions.md R214). Log entry 7. -/
inductive Response where
  | rdata (v : Word)
  | written
  | error (off : BitVec 8)
deriving DecidableEq, Repr

/-- One element of a run's input: an HT (42_host_registers.md R180), an RST event (70_reset_and_hazards.md
R240), or a turn of the ENGINE, the place where its completion falls (41_section_cipher.md R136). Log entry 5. -/
inductive Event where
  | ht (t : HT)
  | rst
  | engine
deriving DecidableEq, Repr

/-- The state of the block. -/
structure State where
  /-- SECBUF (R21). -/
  secbuf : Memory
  /-- ENG (R41), and STATUS.BUSY (R25). -/
  eng : EngPhase
  /-- PEND (R41). -/
  pend : Word
  /-- STATUS.DONE (R26). -/
  done : Bool
  /-- STATUS.OVR (R27). -/
  ovr : Bool
  /-- STATUS.ERR (R28). -/
  err : ErrCode
  /-- STATUS.RESGEN (R29), none for 0. -/
  resgen : Option Gen
  /-- CTRL.IE (R30). -/
  ie : Bool
  /-- CK_SUM (R34). -/
  ckSum : Word
  /-- CK_CARRY (R35). -/
  ckCarry : Word
  /-- CK_BBUF (R36). -/
  ckBbuf : ByteLane
  /-- CK_BCNT (R36). -/
  ckBcnt : Fin 4
  /-- CK_STAT.DROP (R37). -/
  ckDrop : Bool
  /-- SCR (R40), 48 bytes. -/
  scr : Bytes
  /-- SEED (R42), 20 bytes. -/
  seed : Bytes
  /-- CTAG (R42), 20 bytes. -/
  ctag : Bytes
  /-- g, the attempt index (R42). -/
  attempt : Fin 4
  /-- S of RC4 (R42). Unspecified after scrub and reset (R45, R141): log entry 4. -/
  rc4S : Vector Byte 256
  /-- i of RC4 (R42). -/
  rc4I : Byte
  /-- j of RC4 (R42). -/
  rc4J : Byte
  /-- KEYROM (R43). -/
  keyrom : KeyRom
  /-- The response to the last HT; the model's own field, log entry 7. -/
  response : Option Response
  /-- The rest of a finite input (R180); the model's own field, log entry 5. An infinite input is Machine/Run.lean's. -/
  inputs : List Event
  /-- How many free values have been drawn; the model's own field, log entry 4. -/
  freeDraws : Nat
deriving DecidableEq, Repr

/-- The machine right after reset (R45, 70_reset_and_hazards.md R240). rc4S is DESIGN CHOICE (log entry 4:
the spec leaves it unspecified), and so are response, inputs and freeDraws (log entries 4, 5, 7, 8). -/
def State.reset : State where
  secbuf := []
  eng := .idle
  pend := 0
  done := false
  ovr := false
  err := .ok
  resgen := none
  ie := false
  ckSum := 0
  ckCarry := 0
  ckBbuf := ⟨0, 0, 0⟩
  ckBcnt := 0
  ckDrop := false
  scr := List.replicate 48 0
  seed := List.replicate 20 0
  ctag := List.replicate 20 0
  attempt := 0
  rc4S := sboxId
  rc4I := 0
  rc4J := 0
  keyrom := ⟨Config.rootKey .gen1, Config.rootKey .gen2, Config.rootKey .gen3⟩
  response := none
  inputs := []
  freeDraws := 0

end Sys2Proof.Machine
end

