-- ==== Sys2Proof/Machine/Flags.lean ====
section
/-! DEFINITION. The flags of the block (10_state.md R44), the words they are read in (R24, R30, R37), and the
interrupt output (R32). -/

namespace Sys2Proof.Machine

/-- STATUS.BUSY: "ENG = BUSY exactly when STATUS.BUSY = 1" (R41). -/
def State.busy (s : State) : Bool :=
  match s.eng with
  | .idle => false
  | .busy => true

/-- The number of an outcome code (60_exceptions.md R210). -/
def ErrCode.code : ErrCode → Nat
  | .ok => 0
  | .verificationFailed => 1
  | .invalidGeneration => 2
  | .illegalCommand => 3

/-- The number of RESGEN: the generation's code, or 0 (R29). -/
def resgenCode : Option Gen → Nat
  | none => 0
  | some g => g.code

/-- A flag as bit n of a word. -/
def flagBit (b : Bool) (n : Nat) : Word := (BitVec.ofBool b).setWidth 32 <<< n

/-- `RESGEN << 8 | ERR << 4 | OVR << 2 | DONE << 1 | BUSY` (42_host_registers.md R185). -/
def statusWord (s : State) : Word :=
  BitVec.ofNat 32 (resgenCode s.resgen) <<< 8 ||| BitVec.ofNat 32 s.err.code <<< 4
    ||| flagBit s.ovr 2 ||| flagBit s.done 1 ||| flagBit s.busy 0

/-- `zext_32(CTRL.IE)` (R187). -/
def ctrlWord (s : State) : Word := flagBit s.ie 0

/-- `CK_STAT.DROP << 8 | CK_BCNT` (40_checksum.md R111). -/
def ckStatWord (s : State) : Word := flagBit s.ckDrop 8 ||| BitVec.ofNat 32 s.ckBcnt.val

/-- A W1C flag after a write: "a bit cleared by writing 1 to it; writing 0 leaves it" (00_scope.md R18). -/
def w1c (flag clear : Bool) : Bool := flag && !clear

/-- `IRQ = CTRL.IE & STATUS.DONE` (R32, 60_exceptions.md R216). -/
def State.irq (s : State) : Bool := s.ie && s.done

/-- The platform's interrupt lines as this block drives them: IRQ on line IRQ_LINE (R216). Log entry 13. -/
def State.irqOnLine (s : State) (line : Nat) : Bool := line == Config.irqLine && s.irq

end Sys2Proof.Machine
end

