-- ==== Sys2Proof/Machine/Operands.lean ====
section
/-! DEFINITION. Operand assembly from WDATA (30_encoding.md R87) and from KEYROM and PEND. -/

namespace Sys2Proof.Machine

/-- `WDATA[7:0]`, the operand of CK_PUSHB; "WDATA[31:8] ignored" (R87). -/
def pushByte (v : Word) : Byte := byteOf v 0

/-- `WDATA[1]` of a STATUS write: clear DONE (R87). -/
def wClearDone (v : Word) : Bool := v.getLsbD 1

/-- `WDATA[2]` of a STATUS write: clear OVR (R87). -/
def wClearOvr (v : Word) : Bool := v.getLsbD 2

/-- `WDATA[0]` of a CTRL write: goes to IE (R87). -/
def wIe (v : Word) : Bool := v.getLsbD 0

/-- `WDATA[0]` of a CK_CTRL write: CLEAR (R87). -/
def wClear (v : Word) : Bool := v.getLsbD 0

/-- `WDATA[8]` of a CK_STAT write: clear DROP (R87). -/
def wClearDrop (v : Word) : Bool := v.getLsbD 8

/-- ROOT_KEY(g) as KEYROM holds it (10_state.md R43, 41_section_cipher.md R134). -/
def rootKey (k : KeyRom) : Gen → Bytes
  | .gen1 => k.key1.toList
  | .gen2 => k.key2.toList
  | .gen3 => k.key3.toList

end Sys2Proof.Machine
end

