-- ==== Sys2Proof/Machine/Ops.lean ====
section
/-! DEFINITION. The shared operations: SECBUF's bytes and words, the bus responses, command acceptance
(41_section_cipher.md R135), scrub (R141), completion (R140, the analogue of taking an exception:
60_exceptions.md R221), acknowledgement (R222, the analogue of the return from one), and the reset event
(70_reset_and_hazards.md R240). -/

namespace Sys2Proof.Machine

/-! SECBUF. -/

/-- The number of bytes of SECBUF (10_state.md R21). -/
def secbufSize : Nat := 48

/-- The byte at an address; an unlisted address reads 0x00 (R45). -/
def Memory.read : Memory → Nat → Byte
  | [], _ => 0
  | (b, w) :: m, a => if b = a then w else Memory.read m a

/-- The cells with the byte at an address replaced, in the canonical form. -/
def Memory.insert : Memory → Nat → Byte → Memory
  | [], a, v => if v = 0 then [] else [(a, v)]
  | (b, w) :: m, a, v =>
    if a < b then if v = 0 then (b, w) :: m else (a, v) :: (b, w) :: m
    else if a = b then if v = 0 then m else (a, v) :: m
    else (b, w) :: Memory.insert m a v

/-- A byte write. No byte exists outside 0..47; log entry 15. -/
def Memory.write (m : Memory) (a : Nat) (v : Byte) : Memory :=
  if a < secbufSize then Memory.insert m a v else m

/-- A string written from an address on, ascending. -/
def Memory.writeBytes (m : Memory) (a : Nat) : Bytes → Memory
  | [] => m
  | v :: vs => Memory.writeBytes (m.write a v) (a + 1) vs

/-- The canonical form, for cells at or above an address: strictly rising, below 48, no zero byte. -/
def Memory.wfFrom : Nat → Memory → Bool
  | _, [] => true
  | lo, (a, v) :: m => lo ≤ a && a < secbufSize && v != 0 && Memory.wfFrom (a + 1) m

/-- The canonical form of the memory. -/
def Memory.wf (m : Memory) : Bool := Memory.wfFrom 0 m

/-- `SECBUF[0..48)` as a byte string (00_scope.md R13). -/
def Memory.bytes (m : Memory) : Bytes := (List.range secbufSize).map m.read

/-- `SECW(i) = le32(SECBUF[4i], ..., SECBUF[4i+3])` (20_memory.md R61). -/
def Memory.secw (m : Memory) (i : Nat) : Word :=
  le32 (m.read (4 * i)) (m.read (4 * i + 1)) (m.read (4 * i + 2)) (m.read (4 * i + 3))

/-- A host write of v to word i: `SECBUF[4i+k] <- v[8k+7:8k]` (R61). -/
def Memory.setSecw (m : Memory) (i : Nat) (v : Word) : Memory := m.writeBytes (4 * i) (bytesLe32 v)

/-- The commit of a whole section, `SECBUF <- out` (41_section_cipher.md R140). -/
def Memory.commit (m : Memory) (out : Bytes) : Memory := m.writeBytes 0 out

/-- Effective address of a host access: `BASE + OFF` (42_host_registers.md R194, 20_memory.md R68). -/
def effectiveAddress (off : BitVec 8) : Nat := Config.base + off.toNat

/-! Bus responses (30_encoding.md R81). -/

/-- RESP = OKAY with RDATA: a read, "State is unchanged". -/
def State.readOkay (s : State) (v : Word) : State := { s with response := some (.rdata v) }

/-- RESP = OKAY of a write. -/
def State.writeOkay (s : State) : State := { s with response := some .written }

/-- `raise BusError(off)`: RESP = ERROR with the window offset, and "it changes no state" (60_exceptions.md
R214). -/
def State.busError (s : State) (off : BitVec 8) : State := { s with response := some (.error off) }

/-- A write dropped because BUSY = 1: OVR is set, "the bus completes OKAY" (42_host_registers.md R181, R183;
60_exceptions.md R215). -/
def State.dropWrite (s : State) : State := { s with ovr := true, response := some .written }

/-! Commands. -/

/-- Command acceptance (R135). -/
def State.accept (s : State) (v : Word) : State :=
  { s with pend := v, eng := .busy, done := false, err := .ok, resgen := none }

/-- `scrub()` (R141): SCR, SEED, CTAG, g, i and j to zero, S a free value (log entry 4). -/
def State.scrub (s : State) : State :=
  { s with
    scr := List.replicate 48 0
    seed := List.replicate 20 0
    ctag := List.replicate 20 0
    attempt := 0
    rc4S := Config.unspecifiedS s.freeDraws
    rc4I := 0
    rc4J := 0
    freeDraws := s.freeDraws + 1 }

/-- The record of a completion, after SECBUF's commit if there is one (R140, 60_exceptions.md R221). -/
def State.complete (s : State) (err : ErrCode) (gen : Option Gen) : State :=
  { s with err := err, resgen := gen, eng := .idle, done := true, pend := 0 }.scrub

/-- The acknowledgement of a STATUS write: W1C of DONE and OVR, nothing restored (42_host_registers.md R186,
60_exceptions.md R222). -/
def State.acknowledge (s : State) (v : Word) : State :=
  { s with done := w1c s.done (wClearDone v), ovr := w1c s.ovr (wClearOvr v) }

/-! Reset. -/

/-- An RST event (70_reset_and_hazards.md R240): every element at its value of 10_state.md R45, KEYROM
unchanged (R243), S a free value (log entry 4). What is left of the run's input stays. -/
def State.resetEvent (s : State) : State :=
  { State.reset with
    rc4S := Config.unspecifiedS s.freeDraws
    keyrom := s.keyrom
    inputs := s.inputs
    freeDraws := s.freeDraws + 1 }

end Sys2Proof.Machine
end

