-- ==== Sys2Proof/Machine/Checksum.lean ====
section
/-! DEFINITION. The checksum unit (40_checksum.md): its arithmetic (R100 to R102) and the meanings of its
register operations (R105 to R111, R113; 42_host_registers.md R191, R192). -/

namespace Sys2Proof.Machine

/-- `CK_ACC(s, c, w)`: the carry is found by the comparison `s2 <u s` (R100). -/
def ckAcc (s c w : Word) : Word × Word := (s + w, if (s + w).ult s then c + 1 else c)

/-- `CK_FOLD(s, c)` (R101). -/
def ckFold (s c : Word) : Word := if (s + c).ult s then s + c + 1 else s + c

/-- The loop of CHECKSUM over the first n words of a byte string (R102). DESIGN CHOICE: R102 gives it for counts up
to the string's length only; beyond it a missing byte counts as 0. Log entry 19. -/
def ckLoop : Nat → Bytes → Word × Word → Word × Word
  | 0, _, sc => sc
  | n + 1, data, sc =>
    ckLoop n (data.drop 4)
      (ckAcc sc.1 sc.2 (le32 (data.getD 0 0) (data.getD 1 0) (data.getD 2 0) (data.getD 3 0)))

/-- `CHECKSUM(data, count)`, the source's function (R102), for `count <= len(data)`. For a larger count the value is
the model's choice: log entry 19. -/
def checksum (data : Bytes) (count : Nat) : Word :=
  let sc := ckLoop (count / 4) data (0, 0)
  ckFold sc.1 sc.2

/-- One word accumulated into CK_SUM and CK_CARRY (R100, R105, R106). -/
def State.accumulate (s : State) (w : Word) : State :=
  { s with ckSum := (ckAcc s.ckSum s.ckCarry w).1, ckCarry := (ckAcc s.ckSum s.ckCarry w).2 }

/-- `CK_BBUF <- (0, 0, 0); CK_BCNT <- 0` (R105 to R107). -/
def State.emptyLane (s : State) : State := { s with ckBbuf := ⟨0, 0, 0⟩, ckBcnt := 0 }

/-- The discard of pending bytes by a word push: DROP is set if there were any (R105). -/
def State.dropPending (s : State) : State :=
  if s.ckBcnt ≠ 0 then { s.emptyLane with ckDrop := true } else s

/-- A byte into the lane; the fourth completes a word (R106). -/
def State.pushLane (s : State) (b : Byte) : State :=
  match s.ckBcnt with
  | 0 => { s with ckBbuf := { s.ckBbuf with b0 := b }, ckBcnt := 1 }
  | 1 => { s with ckBbuf := { s.ckBbuf with b1 := b }, ckBcnt := 2 }
  | 2 => { s with ckBbuf := { s.ckBbuf with b2 := b }, ckBcnt := 3 }
  | 3 => (s.accumulate (le32 s.ckBbuf.b0 s.ckBbuf.b1 s.ckBbuf.b2 b)).emptyLane

/-- The effect of CLEAR (R107). -/
def State.clearChecksum (s : State) : State :=
  { s.emptyLane with ckSum := 0, ckCarry := 0, ckDrop := false }

/-- CK_PUSHW (R105). -/
def execCkPushw (v : Word) (s : State) : Host.Outcome State Fault Refusal :=
  .next (s.dropPending.accumulate v).writeOkay

/-- CK_PUSHB (R106). -/
def execCkPushb (v : Word) (s : State) : Host.Outcome State Fault Refusal :=
  .next (s.pushLane (pushByte v)).writeOkay

/-- CK_CTRL write (R107). -/
def execCkClear (v : Word) (s : State) : Host.Outcome State Fault Refusal :=
  .next (if wClear v then s.clearChecksum else s).writeOkay

/-- A read of a write-only checksum port (R191). -/
def execCkWoRd (_k : Fin 3) (s : State) : Host.Outcome State Fault Refusal :=
  .next (s.readOkay 0)

/-- CK_STAT read (R111). -/
def execCkStatRd (s : State) : Host.Outcome State Fault Refusal :=
  .next (s.readOkay (ckStatWord s))

/-- CK_STAT write, W1C of DROP (R113). -/
def execCkStatWr (v : Word) (s : State) : Host.Outcome State Fault Refusal :=
  .next { s with ckDrop := w1c s.ckDrop (wClearDrop v) }.writeOkay

/-- CK_SUM read (R109). -/
def execCkSumRd (s : State) : Host.Outcome State Fault Refusal :=
  .next (s.readOkay s.ckSum)

/-- CK_CARRY read (R110). -/
def execCkCarryRd (s : State) : Host.Outcome State Fault Refusal :=
  .next (s.readOkay s.ckCarry)

/-- CK_RESULT read: the fold at the time of the read, never complemented (R108; 10_state.md R39). -/
def execCkResultRd (s : State) : Host.Outcome State Fault Refusal :=
  .next (s.readOkay (ckFold s.ckSum s.ckCarry))

/-- A write to a read-only checksum register (R192). -/
def execCkRoWr (_k : Fin 3) (_v : Word) (s : State) : Host.Outcome State Fault Refusal :=
  .next s.writeOkay

end Sys2Proof.Machine
end

