-- ==== Sys2Proof/Machine/Cipher.lean ====
section
/-! DEFINITION. The section cipher (41_section_cipher.md): the functions a completion computes (R137 to R139)
and the meanings of the command words, each the completion R140 of its case (R142, R147 to R149). -/

namespace Sys2Proof.Machine

/-- The stored AuthTag, `sec[0..20)` (10_state.md R21). -/
def tagOf (sec : Bytes) : Bytes := sec.take 20

/-- The payload, `sec[20..48)` (R21). -/
def payloadOf (sec : Bytes) : Bytes := (sec.drop 20).take 28

/-- One decrypt attempt under a root key, `ATTEMPT(sec, g)`: whether the candidate verifies, all 20 bytes
compared (R143), and the candidate payload (R137). -/
def attempt (key sec : Bytes) : Bool × Bytes :=
  let cand := rc4 (hmac20 key (tagOf sec)) (payloadOf sec)
  (hmac20 key cand == tagOf sec, cand)

/-- The generations in priority order, "{Gen1, Gen2, Gen3}" (R138, R146). -/
def priorityOrder : List Gen := [.gen1, .gen2, .gen3]

/-- The trial loop of R138 over a list of generations, with early exit; every attempt is on the original
section (R144). -/
def trial (keys : Gen → Bytes) (sec : Bytes) : List Gen → Option (Gen × Bytes)
  | [] => none
  | g :: gs =>
    if (attempt (keys g) sec).1 then some (g, tagOf sec ++ (attempt (keys g) sec).2)
    else trial keys sec gs

/-- `DECRYPT_FN(sec)`: the first generation that verifies and the committed section, or none (R138). -/
def decryptFn (keys : Gen → Bytes) (sec : Bytes) : Option (Gen × Bytes) := trial keys sec priorityOrder

/-- `ENCRYPT_FN(sec, g)` under a root key; the incoming AuthTag is not read (R139). -/
def encryptFn (key sec : Bytes) : Bytes :=
  let tag := hmac20 key (payloadOf sec)
  tag ++ rc4 (hmac20 key tag) (payloadOf sec)

/-- The completion of a DECRYPT (R140): the commit and OK, or VERIFICATION_FAILED with SECBUF unchanged. -/
def State.completeDecrypt (s : State) : State :=
  match decryptFn (rootKey s.keyrom) s.secbuf.bytes with
  | some (g, out) => { s with secbuf := s.secbuf.commit out }.complete .ok (some g)
  | none => s.complete .verificationFailed none

/-- DECRYPT (R142): the completion R140 of its case. In a state with no accepted command it is what
acceptance and an immediate completion give; log entry 10. -/
def execDecrypt (s : State) : Host.Outcome State Fault Refusal :=
  .next s.completeDecrypt

/-- ENCRYPT g (R147): the completion R140 of its case. -/
def execEncrypt (g : Gen) (s : State) : Host.Outcome State Fault Refusal :=
  .next ({ s with secbuf := s.secbuf.commit (encryptFn (rootKey s.keyrom g) s.secbuf.bytes) }.complete
    .ok (some g))

/-- ENCRYPT with a code that is no generation (R148): INVALID_GENERATION, SECBUF unchanged. -/
def execEncryptBadgen (_gen : BitVec 8) (s : State) : Host.Outcome State Fault Refusal :=
  .next (s.complete .invalidGeneration none)

/-- An illegal command word (R149): ILLEGAL_COMMAND, SECBUF unchanged. -/
def execIllegal (_w : Word) (s : State) : Host.Outcome State Fault Refusal :=
  .next (s.complete .illegalCommand none)

end Sys2Proof.Machine
end

