-- ==== Sys2Proof/Machine/HostRegs.lean ====
section
/-! DEFINITION. The meanings of the host register operations that are not the checksum unit's
(42_host_registers.md R181 to R190, R193) and of the malformed access (60_exceptions.md R214). -/

namespace Sys2Proof.Machine

/-- ID, "0x4553, ASCII ES", revision 1.0 (10_state.md R33). -/
def idValue : Word := 0x45530100

/-- SECBUF_W<i> write (R181). -/
def execSecbufWr (i : Fin 12) (v : Word) (s : State) : Host.Outcome State Fault Refusal :=
  if s.busy then .next s.dropWrite
  else .next { s with secbuf := s.secbuf.setSecw i.val v }.writeOkay

/-- SECBUF_W<i> read (R182). -/
def execSecbufRd (i : Fin 12) (s : State) : Host.Outcome State Fault Refusal :=
  .next (s.readOkay (s.secbuf.secw i.val))

/-- CMD write (R183): acceptance while idle, dropped while busy. -/
def execCmdWr (v : Word) (s : State) : Host.Outcome State Fault Refusal :=
  if s.busy then .next s.dropWrite else .next (s.accept v).writeOkay

/-- CMD read (R184): "PEND is never readable". -/
def execCmdRd (s : State) : Host.Outcome State Fault Refusal :=
  .next (s.readOkay 0)

/-- STATUS read (R185). -/
def execStatusRd (s : State) : Host.Outcome State Fault Refusal :=
  .next (s.readOkay (statusWord s))

/-- STATUS write (R186). -/
def execStatusWr (v : Word) (s : State) : Host.Outcome State Fault Refusal :=
  .next (s.acknowledge v).writeOkay

/-- CTRL read (R187). -/
def execCtrlRd (s : State) : Host.Outcome State Fault Refusal :=
  .next (s.readOkay (ctrlWord s))

/-- CTRL write (R188). -/
def execCtrlWr (v : Word) (s : State) : Host.Outcome State Fault Refusal :=
  .next { s with ie := wIe v }.writeOkay

/-- ID read (R189). -/
def execIdRd (s : State) : Host.Outcome State Fault Refusal :=
  .next (s.readOkay idValue)

/-- ID write (R190). -/
def execIdWr (_v : Word) (s : State) : Host.Outcome State Fault Refusal :=
  .next s.writeOkay

/-- A read of a reserved offset (R193): reads as zero. -/
def execRsvRd (_o : BitVec 6) (s : State) : Host.Outcome State Fault Refusal :=
  .next (s.readOkay 0)

/-- A write to a reserved offset (R193): ignored. -/
def execRsvWr (_o : BitVec 6) (_v : Word) (s : State) : Host.Outcome State Fault Refusal :=
  .next s.writeOkay

/-- A malformed access raises BusError(off), whatever its direction and size (60_exceptions.md R214). -/
def execBuserr (_dir : Dir) (_size : BitVec 2) (off : BitVec 8) (s : State) :
    Host.Outcome State Fault Refusal :=
  .next (s.busError off)

end Sys2Proof.Machine
end

