-- ==== Sys2Proof/Machine/Dispatch.lean ====
section
/-! DEFINITION. The dispatch of an instruction to its meaning. -/

namespace Sys2Proof.Machine

def exec (i : Instr) (s : State) : Host.Outcome State Fault Refusal :=
  match i with
  -- command words (41_section_cipher.md)
  | .decrypt => Sys2Proof.Machine.execDecrypt s
  | .encrypt g => Sys2Proof.Machine.execEncrypt g s
  | .encryptBadgen gen => Sys2Proof.Machine.execEncryptBadgen gen s
  | .illegal w => Sys2Proof.Machine.execIllegal w s
  -- host registers (42_host_registers.md)
  | .secbufWr k v => Sys2Proof.Machine.execSecbufWr k v s
  | .secbufRd k => Sys2Proof.Machine.execSecbufRd k s
  | .cmdWr v => Sys2Proof.Machine.execCmdWr v s
  | .cmdRd => Sys2Proof.Machine.execCmdRd s
  | .statusRd => Sys2Proof.Machine.execStatusRd s
  | .statusWr v => Sys2Proof.Machine.execStatusWr v s
  | .ctrlRd => Sys2Proof.Machine.execCtrlRd s
  | .ctrlWr v => Sys2Proof.Machine.execCtrlWr v s
  | .idRd => Sys2Proof.Machine.execIdRd s
  | .idWr v => Sys2Proof.Machine.execIdWr v s
  -- checksum unit (40_checksum.md)
  | .ckPushw v => Sys2Proof.Machine.execCkPushw v s
  | .ckPushb v => Sys2Proof.Machine.execCkPushb v s
  | .ckClear v => Sys2Proof.Machine.execCkClear v s
  | .ckWoRd k => Sys2Proof.Machine.execCkWoRd k s
  | .ckStatRd => Sys2Proof.Machine.execCkStatRd s
  | .ckStatWr v => Sys2Proof.Machine.execCkStatWr v s
  | .ckSumRd => Sys2Proof.Machine.execCkSumRd s
  | .ckCarryRd => Sys2Proof.Machine.execCkCarryRd s
  | .ckResultRd => Sys2Proof.Machine.execCkResultRd s
  | .ckRoWr k v => Sys2Proof.Machine.execCkRoWr k v s
  -- reserved offsets and malformed accesses (42_host_registers.md R193, 60_exceptions.md R214)
  | .rsvRd o => Sys2Proof.Machine.execRsvRd o s
  | .rsvWr o v => Sys2Proof.Machine.execRsvWr o v s
  | .buserr dir size off => Sys2Proof.Machine.execBuserr dir size off s

end Sys2Proof.Machine
end

