-- ==== Sys2Proof/Machine/Fetch.lean ====
section
/-! DEFINITION. Whose turn it is and what it runs (00_scope.md R19; 42_host_registers.md R180;
41_section_cipher.md R136; 70_reset_and_hazards.md R240), and how an instruction is placed to be run next. -/

namespace Sys2Proof.Machine

/-- What the next turn of the run is: an instruction to run at a state, or a state the turn gives by itself. -/
inductive Turn where
  | run (i : Instr) (s : State)
  | becomes (s : State)

/-- The ENGINE's turn: the completion of the latched command, "enabled exactly when ENG = BUSY. When ENG = IDLE
the engine has no step" (R136), and the turn passes. Log entry 6. -/
def engineTurn (s : State) : Turn :=
  if s.busy then .run (decodeCW s.pend) s else .becomes s

/-- The next turn. The HOST takes one HT, in order (R180); an RST event resets (R240); the ENGINE may be placed
between any two of them (R136, R219). With no input left the ENGINE completes a command in flight, and an idle
block waits (70_reset_and_hazards.md R244). Log entries 5 and 6. -/
def nextTurn (s : State) : Turn :=
  match s.inputs with
  | [] => engineTurn s
  | .ht t :: rest => .run (decodeHT t) { s with inputs := rest }
  | .rst :: rest => .becomes { s with inputs := rest }.resetEvent
  | .engine :: rest => engineTurn { s with inputs := rest }

/-- A command word placed for the ENGINE's next turn: accepted (R135) and scheduled. Log entry 8. -/
def State.placeCW (s : State) (w : Word) : State :=
  { s.accept w with inputs := .engine :: s.inputs }

/-- A host transaction placed as the next input. Log entry 8. -/
def State.placeHT (s : State) (t : HT) : State :=
  { s with inputs := .ht t :: s.inputs }

end Sys2Proof.Machine
end

