-- ==== Sys2Proof/Machine/Step.lean ====
section
/-! DEFINITION. One step of the machine: one turn of HOST, ENGINE or reset. -/

namespace Sys2Proof.Machine

/-- One step (00_scope.md R19). -/
def step (s : State) : Host.Outcome State Fault Refusal :=
  match nextTurn s with
  | .run i t => exec i t
  | .becomes t => .next t

/-- A state whose next step runs the instruction of a table word: a CW accepted for the ENGINE's next turn, an
HT as the next input. Log entry 8. -/
def State.withFetchWord (s : State) (nbits w : Nat) : State :=
  if formatBytes nbits = 4 then s.placeCW (BitVec.ofNat 32 w)
  else s.placeHT (HT.ofPattern (BitVec.ofNat 43 w))

end Sys2Proof.Machine
end

