-- ==== Sys2Proof/Machine/Run.lean ====
section
/-! DEFINITION. Runs on an infinite input: "a run's input is a finite or infinite sequence of HTs, with reset events
interleaved" (42_host_registers.md R180), and the ENGINE's turns among them (41_section_cipher.md R136). A finite input
is the list in the state, which `step` consumes; an infinite one is a function of the turn's number, which stands
beside the state, since the state is plain data. Log entry 5. -/

namespace Sys2Proof.Machine

/-- An infinite input: the event of each turn, from turn 0 on (R180). -/
abbrev InfiniteInput := Nat → Event

/-- One step that takes the event e, whatever input the state holds itself. -/
def stepOn (e : Event) (s : State) : Host.Outcome State Fault Refusal :=
  step { s with inputs := e :: s.inputs }

/-- The state after the first k turns of an infinite input, each an event of it in order (R180). -/
def runInput (input : InfiniteInput) : Nat → State → Host.Outcome State Fault Refusal
  | 0, s => .next s
  | k + 1, s =>
    match runInput input k s with
    | .next t => stepOn (input k) t
    | .fault r => .fault r
    | .refused r => .refused r

/-- An infinite input on which the ENGINE is scheduled again and again, the weak fairness of R136: under it an accepted
command "is eventually taken" to its completion. DEDUCED; log entry 5. -/
def InfiniteInput.fair (input : InfiniteInput) : Prop := ∀ n, ∃ m, n ≤ m ∧ input m = .engine

end Sys2Proof.Machine
end

