-- ==== Sys2Proof/Machine/Sequence.lean ====
section
/-! DEFINITION. The internal sequence of an accepted command (41_section_cipher.md R150), on the hidden state
(10_state.md R40 to R42). "The sub-phases are not architectural": `step` takes the completion R140 at once, and
this sequence stands beside it, to be proved to have its end state. Log entry 12. -/

namespace Sys2Proof.Machine

/-- The sub-phases of R150; a stream sub-phase carries the index n of its byte, `n in [0..28)`. -/
inductive SubPhase where
  | dSeed (g : Gen)
  | dKsa (g : Gen)
  | dStream (g : Gen) (n : Nat)
  | dTag (g : Gen)
  | dCmp (g : Gen)
  | eTag (g : Gen)
  | eSeed (g : Gen)
  | eKsa (g : Gen)
  | eStream (g : Gen) (n : Nat)
  | ePut (g : Gen)
  | commit (g : Gen)
  | abandon (e : ErrCode)
  | finished
deriving DecidableEq, Repr

/-- The attempt index g of a generation (10_state.md R42). -/
def attemptIndex : Gen → Fin 4
  | .gen1 => 1
  | .gen2 => 2
  | .gen3 => 3

/-- `(S, i, j) <- RC4_KSA(SEED)`. -/
def State.subKsa (s : State) : State :=
  { s with rc4S := (rc4Ksa s.seed).s, rc4I := (rc4Ksa s.seed).i, rc4J := (rc4Ksa s.seed).j }

/-- `(S, i, j, ks) <- RC4_PRGA(S, i, j); SCR[20+n] <- SECBUF[20+n] ^ ks`. -/
def State.subStream (s : State) (n : Nat) : State :=
  let r := rc4Prga ⟨s.rc4S, s.rc4I, s.rc4J⟩
  { s with
    rc4S := r.1.s
    rc4I := r.1.i
    rc4J := r.1.j
    scr := s.scr.set (20 + n) (s.secbuf.read (20 + n) ^^^ r.2) }

/-- `SCR[0..20) <- tag`. -/
def State.subPut (s : State) (tag : Bytes) : State := { s with scr := tag ++ s.scr.drop 20 }

/-- What follows a failed attempt: the next generation, or COMMIT(fail) after the last (R150, R138). -/
def afterFailed : Gen → SubPhase
  | .gen1 => .dSeed .gen2
  | .gen2 => .dSeed .gen3
  | .gen3 => .abandon .verificationFailed

/-- One sub-phase of R150. DESIGN CHOICE: eTag also sets the attempt index g to ENCRYPT's generation, which R150's
E.TAG does not say and R42 leaves open; dSeed sets it as the loop over g. Log entry 12. -/
def subStep (p : SubPhase) (s : State) : SubPhase × State :=
  match p with
  | .dSeed g =>
    (.dKsa g,
      { s with attempt := attemptIndex g, seed := hmac20 (rootKey s.keyrom g) (tagOf s.secbuf.bytes) })
  | .dKsa g => (.dStream g 0, s.subKsa)
  | .dStream g n => if n < 28 then (.dStream g (n + 1), s.subStream n) else (.dTag g, s)
  | .dTag g => (.dCmp g, { s with ctag := hmac20 (rootKey s.keyrom g) (payloadOf s.scr) })
  | .dCmp g =>
    if s.ctag = tagOf s.secbuf.bytes then (.commit g, s.subPut (tagOf s.secbuf.bytes))
    else (afterFailed g, s)
  | .eTag g =>
    (.eSeed g,
      { s with
        attempt := attemptIndex g
        ctag := hmac20 (rootKey s.keyrom g) (payloadOf s.secbuf.bytes) })
  | .eSeed g => (.eKsa g, { s with seed := hmac20 (rootKey s.keyrom g) s.ctag })
  | .eKsa g => (.eStream g 0, s.subKsa)
  | .eStream g n => if n < 28 then (.eStream g (n + 1), s.subStream n) else (.ePut g, s)
  | .ePut g => (.commit g, s.subPut s.ctag)
  | .commit g => (.finished, { s with secbuf := s.secbuf.commit s.scr }.complete .ok (some g))
  | .abandon e => (.finished, s.complete e none)
  | .finished => (.finished, s)

/-- k sub-phases. -/
def runSub : Nat → SubPhase × State → SubPhase × State
  | 0, ps => ps
  | k + 1, ps => runSub k (subStep ps.1 ps.2)

/-- The first sub-phase of a command word, by the cases of R140. -/
def firstSub (w : Word) : SubPhase :=
  match decodeCW w with
  | .decrypt => .dSeed .gen1
  | .encrypt g => .eTag g
  | .encryptBadgen _ => .abandon .invalidGeneration
  | _ => .abandon .illegalCommand

/-- Sub-phases enough for any command: three attempts of 33 and the commit. -/
def subBound : Nat := 100

end Sys2Proof.Machine
end

