-- ==== Sys2Proof/Safety.lean ====
section
/-! DEFINITION. The terms the statements use: the invariant of the machine's states, what is hidden from the
host, and what of the state each unit owns. -/

namespace Sys2Proof.Machine

/-- What the spec says holds between any two steps of a run. -/
structure State.Inv (s : State) : Prop where
  /-- SECBUF's cells are in the canonical form. -/
  memory : s.secbuf.wf = true
  /-- "While BUSY = 1 the value is `0x00000001 | OVR << 2`" (42_host_registers.md R185): DONE, ERR and RESGEN are 0. -/
  busy : s.eng = .busy → s.done = false ∧ s.err = .ok ∧ s.resgen = none
  /-- PEND is zero while no command is in flight (41_section_cipher.md R140; 10_state.md R45). -/
  pend : s.eng = .idle → s.pend = 0
  /-- RESGEN is 0 for an unsuccessful command (10_state.md R29). -/
  failed : s.err ≠ .ok → s.resgen = none
  /-- A recorded success reports its generation (60_exceptions.md R210). -/
  succeeded : s.done = true → s.err = .ok → s.resgen ≠ none
  /-- "Bytes of CK_BBUF at index >= CK_BCNT are 0" (10_state.md R36). -/
  lane : (s.ckBcnt = 0 → s.ckBbuf.b0 = 0) ∧ (s.ckBcnt.val ≤ 1 → s.ckBbuf.b1 = 0) ∧
    (s.ckBcnt.val ≤ 2 → s.ckBbuf.b2 = 0)
  /-- "All of it is zero ... after reset and after each completion" (R42, R40), S apart. -/
  hidden : s.scr = List.replicate 48 0 ∧ s.seed = List.replicate 20 0 ∧ s.ctag = List.replicate 20 0 ∧
    s.attempt = 0 ∧ s.rc4I = 0 ∧ s.rc4J = 0

/-- k steps of the machine, stopping at the first stop there is. -/
def runSteps : Nat → State → Host.Outcome State Fault Refusal
  | 0, s => .next s
  | k + 1, s =>
    match step s with
    | .next t => runSteps k t
    | .fault r => .fault r
    | .refused r => .refused r

/-- A section verifies under a root key: its tag is the keyed hash of the payload deciphered with the seed that
the tag gives, "byte-exact, 20 bytes" (41_section_cipher.md R137, R143, R153). -/
def verifies (key sec : Bytes) : Prop :=
  hmac20 key (rc4 (hmac20 key (sec.take 20)) (sec.drop 20)) = sec.take 20

/-- The HT that writes a byte to CK_PUSHB. -/
def byteEvent (b : Byte) : Event := .ht ⟨.write, 2, 0x44, b.setWidth 32⟩

/-- The HT that writes word k of a byte string to CK_PUSHW. -/
def wordEvent (data : Bytes) (k : Nat) : Event :=
  .ht ⟨.write, 2, 0x40, le32 (data.getD (4 * k) 0) (data.getD (4 * k + 1) 0) (data.getD (4 * k + 2) 0)
    (data.getD (4 * k + 3) 0)⟩

/-- The state with the engine's hidden working state (R40, R42) and the free-value counter blanked out. -/
def State.forgetHidden (s : State) : State :=
  { s with
    scr := []
    seed := []
    ctag := []
    attempt := 0
    rc4S := sboxId
    rc4I := 0
    rc4J := 0
    freeDraws := 0 }

/-- The checksum unit's state (R34 to R37). -/
structure CkView where
  sum : Word
  carry : Word
  bbuf : ByteLane
  bcnt : Fin 4
  drop : Bool
deriving DecidableEq, Repr

/-- The checksum unit's state in a state. -/
def State.ckView (s : State) : CkView := ⟨s.ckSum, s.ckCarry, s.ckBbuf, s.ckBcnt, s.ckDrop⟩

/-- The state with the checksum unit's part and the bus response blanked out: all that is the engine's, the
registers' and the run's. -/
def State.withoutCk (s : State) : State :=
  { s with
    ckSum := 0
    ckCarry := 0
    ckBbuf := ⟨0, 0, 0⟩
    ckBcnt := 0
    ckDrop := false
    response := none }

/-- The registers of the checksum unit (10_state.md R23). -/
def checksumReg : Reg → Bool
  | .ckPushw => true
  | .ckPushb => true
  | .ckCtrl => true
  | .ckStat => true
  | .ckSum => true
  | .ckCarry => true
  | .ckResult => true
  | _ => false

/-- What the HOST can observe at a point of the run: every register of the window it can read, in the order of
R23, the last response, and IRQ. -/
def State.hostView (s : State) : List Word × Option Response × Bool :=
  ((List.range 12).map s.secbuf.secw ++
      [statusWord s, ctrlWord s, idValue, ckStatWord s, s.ckSum, s.ckCarry, ckFold s.ckSum s.ckCarry],
    s.response, s.irq)

end Sys2Proof.Machine
end

