-- ==== Sys2Proof/Certificates/Slice0/Obligations.lean ====
section
/-! DEFINITION. The statements for the provers. A statement about `response` speaks of the model's record of RESP
and RDATA (30_encoding.md R81; log entry 7); S of RC4 and the counter it is drawn from are left open everywhere
(log entry 4). -/

open Sys2Proof Sys2Proof.Machine

/-! ### Encoding -/

/-- Decode and encode agree on every well-formed instruction (30_encoding.md R81 to R88; containers: log entry 9). -/
def Obligations.DecodeOfEncodeIsIdentity : Prop :=
  ∀ i : Instr, i.wf = true → decodeBytes (encode i) = .ok i

/-- Every host transaction decodes to a well-formed instruction whose code is the transaction, its ignored WDATA
bits zero (R81, R82; log entry 14). -/
def Obligations.HostTransactionReencodes : Prop :=
  ∀ t : HT, (decodeHT t).wf = true ∧
    (decodeHT t).code =
      .ht { t with wdata := if t.dir = .write ∧ t.size = 2 ∧ t.off.extractLsb' 0 2 = 0 then t.wdata else 0 }

/-- Every command word decodes to a well-formed instruction whose code is the word, all 32 bits (R83, R88). -/
def Obligations.CommandWordReencodes : Prop :=
  ∀ w : Word, (decodeCW w).wf = true ∧ (decodeCW w).code = .cw w

/-- Which words each command row has, in numbers: OP = w mod 256, GEN = (w / 256) mod 256, RSV = w / 2^16
(R83 to R88; R142, R147, R148, R149). -/
def Obligations.CommandWordCases : Prop :=
  ∀ w : Word,
    (decodeCW w = .decrypt ↔ w.toNat = 1) ∧
      (∀ g, decodeCW w = .encrypt g ↔ w.toNat = 256 * g.code + 2) ∧
      (∀ c : BitVec 8, decodeCW w = .encryptBadgen c ↔
        (c.toNat = 0 ∨ 4 ≤ c.toNat) ∧ w.toNat = 256 * c.toNat + 2) ∧
      (decodeCW w = .illegal w ↔
        2 ^ 16 ≤ w.toNat ∨ (w.toNat % 256 ≠ 1 ∧ w.toNat % 256 ≠ 2) ∨
          (w.toNat % 256 = 1 ∧ w.toNat / 256 % 256 ≠ 0))

/-- The ten command words of 30_encoding.md R93, and host transactions of 95_test_vectors.md section 5 (V-H1, V-H7, V-H11,
V-H13) and section 6 (P3, line 11), decode as the spec says (R81, R82). The byte containers that `decodeTableWord` goes
through are the model's choice (log entry 9). -/
def Obligations.SpecSampleWordsDecode : Prop :=
  decodeTableWord 32 0x00000001 = some .decrypt ∧
    decodeTableWord 32 0x00000102 = some (.encrypt .gen1) ∧
    decodeTableWord 32 0x00000202 = some (.encrypt .gen2) ∧
    decodeTableWord 32 0x00000302 = some (.encrypt .gen3) ∧
    decodeTableWord 32 0x00000002 = some (.encryptBadgen 0) ∧
    decodeTableWord 32 0x00000402 = some (.encryptBadgen 4) ∧
    decodeTableWord 32 0x00000101 = some (.illegal 0x00000101) ∧
    decodeTableWord 32 0x00010001 = some (.illegal 0x00010001) ∧
    decodeTableWord 32 0x00000000 = some (.illegal 0x00000000) ∧
    decodeTableWord 32 0x00000003 = some (.illegal 0x00000003) ∧
    decodeTableWord 43 0x61444332211 = some (.secbufWr 5 0x44332211) ∧
    decodeTableWord 43 0x23C00000000 = some .idRd ∧
    decodeTableWord 43 0x64000000010 = some (.ckPushw 0x10) ∧
    decodeTableWord 43 0x2FC00000000 = some (.rsvRd 0x3F) ∧
    decodeTableWord 43 0x63100000001 = some (.buserr .write 2 0x31)

/-! ### The step -/

/-- A HOST turn runs the decoded transaction; an ENGINE turn runs the decoded PEND while a command is in flight.
What an ENGINE turn does while idle, and what a turn without input is, are the model's choice (log entry 6). -/
def Obligations.StepRunsDecodedInstruction : Prop :=
  ∀ (s : State) (i : Instr) (rest : List Event),
    (∀ t, s.inputs = .ht t :: rest → decodeHT t = i → step s = exec i { s with inputs := rest }) ∧
      (s.inputs = .engine :: rest → s.eng = .busy → decodeCW s.pend = i →
        step s = exec i { s with inputs := rest }) ∧
      (s.inputs = [] → s.eng = .busy → decodeCW s.pend = i → step s = exec i s) ∧
      (s.inputs = .engine :: rest → s.eng = .idle → step s = .next { s with inputs := rest }) ∧
      (s.inputs = [] → s.eng = .idle → step s = .next s)

/-- No state stops the machine: every step answers a next state (R82, R89, R214, R246). -/
def Obligations.EveryStepAnswersNext : Prop :=
  ∀ s : State, ∃ t, step s = .next t

/-- The invariant holds at reset. -/
def Obligations.InvariantAtReset : Prop := State.reset.Inv

/-- Every step keeps the invariant: SECBUF in canonical form, STATUS fields as R185 and R26 to R29 say, PEND zero
while idle, the unused byte lane zero (R36), the hidden state scrubbed (R42, R141). -/
def Obligations.StepKeepsInvariant : Prop :=
  ∀ s t : State, s.Inv → step s = .next t → t.Inv

/-- With every input taken and one more turn, the ENGINE is idle: an accepted command completes, whatever the
interleaving (41_section_cipher.md R136). That the input list ends is the model's choice (log entries 5, 6). -/
def Obligations.EveryRunQuiesces : Prop :=
  ∀ s : State, ∃ t, runSteps (s.inputs.length + 1) s = .next t ∧ t.eng = .idle ∧ t.inputs = []

/-- The first k turns of an infinite input run as the list of its first k events (42_host_registers.md R180), whatever list
follows it. The two forms of a run's input are the model's (log entry 5). -/
def Obligations.InfiniteInputRunsAsItsBeginnings : Prop :=
  ∀ (input : InfiniteInput) (k : Nat) (s : State),
    runInput input k s = runSteps k { s with inputs := (List.range k).map input ++ s.inputs }

/-- On an infinite input, right after any turn of the ENGINE no command is in flight; so on a fair one, from every point on,
a command in flight is eventually over, completed or reset (41_section_cipher.md R136). That weak fairness is the
recurrence of the ENGINE's turn, and that the idle ENGINE's turn passes, is the model's (log entries 5, 6). -/
def Obligations.FairInputCompletesEveryCommand : Prop :=
  ∀ (input : InfiniteInput) (s : State),
    (∀ m, input m = .engine → ∃ t, runInput input (m + 1) s = .next t ∧ t.eng = .idle) ∧
      (input.fair → ∀ k, ∃ m t, k ≤ m ∧ runInput input m s = .next t ∧ t.eng = .idle)

/-! ### Reset -/

/-- The values after reset (10_state.md R45); S is not named. -/
def Obligations.ResetLeavesStatedValues : Prop :=
  (∀ a, State.reset.secbuf.read a = 0) ∧ statusWord State.reset = 0 ∧ ctrlWord State.reset = 0 ∧
    idValue = 0x45530100 ∧ State.reset.ckSum = 0 ∧ State.reset.ckCarry = 0 ∧
    State.reset.ckBbuf = ⟨0, 0, 0⟩ ∧ State.reset.ckBcnt = 0 ∧ State.reset.ckDrop = false ∧
    State.reset.eng = .idle ∧ State.reset.pend = 0 ∧ State.reset.scr = List.replicate 48 0 ∧
    State.reset.seed = List.replicate 20 0 ∧ State.reset.ctag = List.replicate 20 0 ∧
    State.reset.attempt = 0 ∧ State.reset.rc4I = 0 ∧ State.reset.rc4J = 0 ∧
    (∀ g, rootKey State.reset.keyrom g = (Config.rootKey g).toList) ∧ State.reset.irq = false

/-- An RST event, also during a command, gives the reset state with KEYROM kept: nothing committed, no completion
recorded, no IRQ, SECBUF all zero, the scratch destroyed (70_reset_and_hazards.md R240, R242, R243). That the record of
the bus response is none afterwards (log entry 7) and that the rest of the input stays (log entry 17) are the model's
choice. -/
def Obligations.ResetEventAbortsAndRestores : Prop :=
  ∀ (s : State) (rest : List Event), s.inputs = .rst :: rest →
    ∃ t, step s = .next t ∧
      (∃ S n, t = { State.reset with rc4S := S, keyrom := s.keyrom, inputs := rest, freeDraws := n }) ∧
      (∀ a, t.secbuf.read a = 0) ∧ t.done = false ∧ t.err = .ok ∧ t.irq = false ∧
      t.scr = List.replicate 48 0

/-- After an RST event the block is idle, its interrupt masked and low, and the next HT may be a command or a
checksum push (70_reset_and_hazards.md R241). -/
def Obligations.ReadyAfterResetEvent : Prop :=
  ∀ (s : State) (v : Word),
    s.resetEvent.eng = .idle ∧ s.resetEvent.ie = false ∧ s.resetEvent.irq = false ∧
      (∃ t, exec (.cmdWr v) s.resetEvent = .next t ∧ t.eng = .busy ∧ t.pend = v) ∧
      (∃ t, exec (.ckPushw v) s.resetEvent = .next t ∧ t.ckSum = v ∧ t.ckCarry = 0) ∧
      (∃ t, exec (.ckPushb v) s.resetEvent = .next t ∧ t.ckBcnt = 1)

/-! ### SECBUF -/

/-- SECBUF_W<i> write while idle (42_host_registers.md R181, 20_memory.md R61): the four bytes at 4i are those of v,
every other byte and everything else is as before. -/
def Obligations.SecbufWriteStoresFourBytes : Prop :=
  ∀ (i : Fin 12) (v : Word) (s : State), s.secbuf.wf = true → s.eng = .idle →
    decodeHT ⟨.write, 2, BitVec.ofNat 8 (4 * i.val), v⟩ = .secbufWr i v ∧
      ∃ m, exec (.secbufWr i v) s = .next { s with secbuf := m, response := some .written } ∧
        (∀ k, k < 4 → m.read (4 * i.val + k) = v.extractLsb' (8 * k) 8) ∧
        (∀ a, a < 4 * i.val ∨ 4 * i.val + 4 ≤ a → m.read a = s.secbuf.read a)

/-- SECBUF_W<i> read in every phase (R182, R61): byte k of RDATA is SECBUF[4i+k], and nothing else changes. -/
def Obligations.SecbufReadReturnsFourBytes : Prop :=
  ∀ (i : Fin 12) (x : Word) (s : State),
    decodeHT ⟨.read, 2, BitVec.ofNat 8 (4 * i.val), x⟩ = .secbufRd i ∧
      ∃ v : Word, exec (.secbufRd i) s = .next { s with response := some (.rdata v) } ∧
        ∀ k, k < 4 → v.extractLsb' (8 * k) 8 = s.secbuf.read (4 * i.val + k)

/-- A SECBUF word written while idle reads back as written, and every other word as before (R61, R71). -/
def Obligations.SecbufWordReadsBack : Prop :=
  ∀ (i j : Fin 12) (v : Word) (s : State), s.secbuf.wf = true → s.eng = .idle →
    ∃ t u w, exec (.secbufWr i v) s = .next t ∧ exec (.secbufRd j) t = .next u ∧
      exec (.secbufRd j) s = .next { s with response := some (.rdata w) } ∧
      u.response = some (.rdata (if j = i then v else w))

/-- A SECBUF or CMD write while BUSY: OKAY on the bus, OVR set, nothing else changed, no interrupt raised, and the
running command has the same outcome (60_exceptions.md R215). -/
def Obligations.BusyWritesAreDropped : Prop :=
  ∀ (i : Fin 12) (v : Word) (s : State), s.eng = .busy →
    exec (.secbufWr i v) s = .next { s with ovr := true, response := some .written } ∧
      exec (.cmdWr v) s = .next { s with ovr := true, response := some .written } ∧
      ({ s with ovr := true, response := some .written } : State).irq = s.irq ∧
      ∃ t, exec (decodeCW s.pend) s = .next t ∧
        exec (decodeCW s.pend) { s with ovr := true, response := some .written } =
          .next { t with ovr := true, response := some .written }

/-- SECBUF changes only by a host write made while idle, a successful completion, or reset
(41_section_cipher.md R140, R145; 10_state.md R22). -/
def Obligations.SecbufWritersAreOnlyThese : Prop :=
  ∀ s t : State, step s = .next t → t.secbuf ≠ s.secbuf →
    (∃ h rest i v, s.inputs = .ht h :: rest ∧ decodeHT h = .secbufWr i v ∧ s.eng = .idle) ∨
      (s.eng = .busy ∧ t.eng = .idle ∧ t.done = true ∧ t.err = .ok ∧ t.resgen ≠ none) ∨
      (∃ rest, s.inputs = .rst :: rest)

/-! ### Host registers -/

/-- Command acceptance: a CMD write while idle, of any word (41_section_cipher.md R135); IRQ drops. -/
def Obligations.CommandAcceptance : Prop :=
  ∀ (v : Word) (s : State), s.eng = .idle →
    decodeHT ⟨.write, 2, 0x30, v⟩ = .cmdWr v ∧
      ∃ t, exec (.cmdWr v) s = .next t ∧
        t = { s with pend := v, eng := .busy, done := false, err := .ok, resgen := none, response := some .written } ∧
        t.irq = false

/-- Reads of CMD, CTRL, ID and the write-only checksum ports: the value, and nothing else changed
(42_host_registers.md R184, R187, R189, R191). -/
def Obligations.ConstantAndControlReads : Prop :=
  ∀ (x : Word) (s : State),
    (decodeHT ⟨.read, 2, 0x30, x⟩ = .cmdRd ∧
        exec .cmdRd s = .next { s with response := some (.rdata 0) }) ∧
      (decodeHT ⟨.read, 2, 0x38, x⟩ = .ctrlRd ∧
        exec .ctrlRd s = .next { s with response := some (.rdata (if s.ie = true then 1 else 0)) }) ∧
      (decodeHT ⟨.read, 2, 0x3C, x⟩ = .idRd ∧
        exec .idRd s = .next { s with response := some (.rdata 0x45530100) }) ∧
      (decodeHT ⟨.read, 2, 0x40, x⟩ = .ckWoRd 0 ∧ decodeHT ⟨.read, 2, 0x44, x⟩ = .ckWoRd 1 ∧
        decodeHT ⟨.read, 2, 0x48, x⟩ = .ckWoRd 2 ∧
        ∀ k, exec (.ckWoRd k) s = .next { s with response := some (.rdata 0) })

/-- STATUS read (42_host_registers.md R185): the fields at their places, reserved bits zero, nothing changed. -/
def Obligations.StatusReadComposesFields : Prop :=
  ∀ (x : Word) (s : State),
    decodeHT ⟨.read, 2, 0x34, x⟩ = .statusRd ∧
      ∃ v : Word, exec .statusRd s = .next { s with response := some (.rdata v) } ∧
        v.toNat = 256 * resgenCode s.resgen + 16 * s.err.code + (if s.ovr = true then 4 else 0) +
          (if s.done = true then 2 else 0) + (if s.eng = .busy then 1 else 0)

/-- STATUS write (R186): DONE and OVR are W1C, all else ignores it; IRQ follows. -/
def Obligations.StatusWriteAcknowledges : Prop :=
  ∀ (v : Word) (s : State),
    decodeHT ⟨.write, 2, 0x34, v⟩ = .statusWr v ∧
      ∃ t, exec (.statusWr v) s = .next t ∧
        t = { s with
          done := if v.getLsbD 1 = true then false else s.done
          ovr := if v.getLsbD 2 = true then false else s.ovr
          response := some .written } ∧
        t.irq = (s.irq && !v.getLsbD 1)

/-- CTRL write (R188): IE takes bit 0 in every phase, and IRQ follows at once. -/
def Obligations.CtrlWriteSetsInterruptEnable : Prop :=
  ∀ (v : Word) (s : State),
    decodeHT ⟨.write, 2, 0x38, v⟩ = .ctrlWr v ∧
      ∃ t, exec (.ctrlWr v) s = .next t ∧ t = { s with ie := v.getLsbD 0, response := some .written } ∧
        t.irq = (v.getLsbD 0 && s.done)

/-- Writes to ID and the read-only checksum registers are ignored (R190, R192). -/
def Obligations.ReadOnlyWritesIgnored : Prop :=
  ∀ (v : Word) (s : State),
    (decodeHT ⟨.write, 2, 0x3C, v⟩ = .idWr v ∧ exec (.idWr v) s = .next { s with response := some .written }) ∧
      (decodeHT ⟨.write, 2, 0x50, v⟩ = .ckRoWr 0 v ∧ decodeHT ⟨.write, 2, 0x54, v⟩ = .ckRoWr 1 v ∧
        decodeHT ⟨.write, 2, 0x58, v⟩ = .ckRoWr 2 v ∧
        ∀ k, exec (.ckRoWr k v) s = .next { s with response := some .written })

/-- Reserved offsets 0x5C..0xFC read as zero and ignore writes (R193). -/
def Obligations.ReservedOffsetsReadZeroIgnoreWrites : Prop :=
  ∀ (o : BitVec 6) (v x : Word) (s : State),
    (0x5C ≤ 4 * o.toNat →
        decodeHT ⟨.read, 2, o ++ (0 : BitVec 2), x⟩ = .rsvRd o ∧
          decodeHT ⟨.write, 2, o ++ (0 : BitVec 2), v⟩ = .rsvWr o v) ∧
      exec (.rsvRd o) s = .next { s with response := some (.rdata 0) } ∧
      exec (.rsvWr o v) s = .next { s with response := some .written }

/-- A malformed access, of any direction, is answered ERROR with its window offset and without data, and
changes no state, in every phase (60_exceptions.md R214, R218). -/
def Obligations.MalformedAccessIsBusError : Prop :=
  ∀ (t : HT) (s : State),
    (t.size.toNat ≠ 2 ∨ t.off.toNat % 4 ≠ 0 → decodeHT t = .buserr t.dir t.size t.off) ∧
      exec (.buserr t.dir t.size t.off) s = .next { s with response := some (.error t.off) }

/-- No read has a side effect: every read of the window, admitted or not, changes only the response
(20_memory.md R67). -/
def Obligations.NoReadHasSideEffect : Prop :=
  ∀ (size : BitVec 2) (off : BitVec 8) (x : Word) (s : State),
    ∃ r, exec (decodeHT ⟨.read, size, off, x⟩) s = .next { s with response := some r }

/-! ### Checksum unit -/

/-- Reads of CK_STAT, CK_SUM, CK_CARRY and CK_RESULT (40_checksum.md R108 to R111). -/
def Obligations.ChecksumReads : Prop :=
  ∀ (x : Word) (s : State),
    (decodeHT ⟨.read, 2, 0x4C, x⟩ = .ckStatRd ∧
        ∃ v : Word, exec .ckStatRd s = .next { s with response := some (.rdata v) } ∧
          v.toNat = (if s.ckDrop = true then 256 else 0) + s.ckBcnt.val) ∧
      (decodeHT ⟨.read, 2, 0x50, x⟩ = .ckSumRd ∧
        exec .ckSumRd s = .next { s with response := some (.rdata s.ckSum) }) ∧
      (decodeHT ⟨.read, 2, 0x54, x⟩ = .ckCarryRd ∧
        exec .ckCarryRd s = .next { s with response := some (.rdata s.ckCarry) }) ∧
      (decodeHT ⟨.read, 2, 0x58, x⟩ = .ckResultRd ∧
        exec .ckResultRd s = .next { s with response := some (.rdata (ckFold s.ckSum s.ckCarry)) })

/-- CK_PUSHW (R105), the carry counted exactly when the exact sum reaches 2^32 (R100). -/
def Obligations.WordPushAccumulates : Prop :=
  ∀ (v : Word) (s : State),
    decodeHT ⟨.write, 2, 0x40, v⟩ = .ckPushw v ∧
      exec (.ckPushw v) s = .next { s with
        ckSum := s.ckSum + v
        ckCarry := if 2 ^ 32 ≤ s.ckSum.toNat + v.toNat then s.ckCarry + 1 else s.ckCarry
        ckBbuf := if s.ckBcnt = 0 then s.ckBbuf else ⟨0, 0, 0⟩
        ckBcnt := 0
        ckDrop := s.ckDrop || s.ckBcnt != 0
        response := some .written }

/-- CK_PUSHB (R106): bytes 0, 1, 2 wait in the lane; byte 3 completes a little-endian word. -/
def Obligations.BytePushAssemblesWords : Prop :=
  ∀ (v : Word) (s : State),
    decodeHT ⟨.write, 2, 0x44, v⟩ = .ckPushb v ∧
      (s.ckBcnt = 0 → exec (.ckPushb v) s = .next { s with
        ckBbuf := ⟨v.extractLsb' 0 8, s.ckBbuf.b1, s.ckBbuf.b2⟩, ckBcnt := 1, response := some .written }) ∧
      (s.ckBcnt = 1 → exec (.ckPushb v) s = .next { s with
        ckBbuf := ⟨s.ckBbuf.b0, v.extractLsb' 0 8, s.ckBbuf.b2⟩, ckBcnt := 2, response := some .written }) ∧
      (s.ckBcnt = 2 → exec (.ckPushb v) s = .next { s with
        ckBbuf := ⟨s.ckBbuf.b0, s.ckBbuf.b1, v.extractLsb' 0 8⟩, ckBcnt := 3, response := some .written }) ∧
      (s.ckBcnt = 3 → ∃ w : Word,
        w.toNat = s.ckBbuf.b0.toNat + 2 ^ 8 * s.ckBbuf.b1.toNat + 2 ^ 16 * s.ckBbuf.b2.toNat +
          2 ^ 24 * (v.toNat % 256) ∧
        exec (.ckPushb v) s = .next { s with
          ckSum := s.ckSum + w
          ckCarry := if 2 ^ 32 ≤ s.ckSum.toNat + w.toNat then s.ckCarry + 1 else s.ckCarry
          ckBbuf := ⟨0, 0, 0⟩
          ckBcnt := 0
          response := some .written })

/-- CK_CTRL write (R107): CLEAR with bit 0, a no-op without it. -/
def Obligations.ClearZeroesChecksumUnit : Prop :=
  ∀ (v : Word) (s : State),
    decodeHT ⟨.write, 2, 0x48, v⟩ = .ckClear v ∧
      (v.getLsbD 0 = true → exec (.ckClear v) s = .next { s with
        ckSum := 0, ckCarry := 0, ckBbuf := ⟨0, 0, 0⟩, ckBcnt := 0, ckDrop := false, response := some .written }) ∧
      (v.getLsbD 0 = false → exec (.ckClear v) s = .next { s with response := some .written })

/-- CK_STAT write (R113): W1C of DROP, CK_BCNT unchanged. -/
def Obligations.CkStatWriteClearsDrop : Prop :=
  ∀ (v : Word) (s : State),
    decodeHT ⟨.write, 2, 0x4C, v⟩ = .ckStatWr v ∧
      exec (.ckStatWr v) s = .next { s with
        ckDrop := if v.getLsbD 8 = true then false else s.ckDrop, response := some .written }

/-- The fold in exact numbers, and when it is zero (R101, R103 (a), (b), (e)). -/
def Obligations.FoldIsExactEndAroundSum : Prop :=
  ∀ s c : Word,
    (ckFold s c).toNat =
        (s.toNat + c.toNat) % 2 ^ 32 + (if 2 ^ 32 ≤ s.toNat + c.toNat then 1 else 0) ∧
      (ckFold s c = 0 ↔ s = 0 ∧ c = 0)

/-- After any words from a clear unit, the sum is their exact sum T mod 2^32 and the carry count is
floor(T / 2^32) mod 2^32 (R103 (c)). -/
def Obligations.AccumulationIsExactSum : Prop :=
  ∀ ws : List Word,
    (ws.foldl (fun sc w => ckAcc sc.1 sc.2 w) (0, 0)).1.toNat = (ws.map BitVec.toNat).sum % 2 ^ 32 ∧
      (ws.foldl (fun sc w => ckAcc sc.1 sc.2 w) (0, 0)).2.toNat =
        (ws.map BitVec.toNat).sum / 2 ^ 32 % 2 ^ 32

/-- Trailing bytes are ignored, and the empty input gives 0 (R102, R114). For a count above the length of the data the
spec gives no value; there the statement is about the model's choice, a missing byte counts as 0 (log entry 19). -/
def Obligations.TrailingBytesAreIgnored : Prop :=
  ∀ (data other : Bytes) (q r : Nat), r < 4 →
    checksum data (4 * q + r) = checksum data (4 * q) ∧
      (data.take (4 * q) = other.take (4 * q) → checksum data (4 * q + r) = checksum other (4 * q + r)) ∧
      checksum data 0 = 0

/-- The byte procedure (R112 (a)): pushing the bytes one by one to a clear unit leaves CK_RESULT =
CHECKSUM(data, count) and CK_BCNT = count mod 4, and touches nothing outside the checksum unit. -/
def Obligations.BytePushesComputeChecksum : Prop :=
  ∀ (data : Bytes) (count : Nat) (rest : List Event) (s : State), count ≤ data.length →
    s.ckSum = 0 → s.ckCarry = 0 → s.ckBcnt = 0 →
    s.inputs = (data.take count).map byteEvent ++ rest →
    ∃ t, runSteps count s = .next t ∧ ckFold t.ckSum t.ckCarry = checksum data count ∧
      t.ckBcnt.val = count % 4 ∧ t.ckDrop = s.ckDrop ∧
      t.withoutCk = ({ s with inputs := rest } : State).withoutCk

/-- The word procedure (R112 (b)). -/
def Obligations.WordPushesComputeChecksum : Prop :=
  ∀ (data : Bytes) (count : Nat) (rest : List Event) (s : State), count ≤ data.length →
    s.ckSum = 0 → s.ckCarry = 0 → s.ckBcnt = 0 →
    s.inputs = (List.range (count / 4)).map (wordEvent data) ++ rest →
    ∃ t, runSteps (count / 4) s = .next t ∧ ckFold t.ckSum t.ckCarry = checksum data count ∧
      t.ckBcnt = 0 ∧ t.ckDrop = s.ckDrop ∧
      t.withoutCk = ({ s with inputs := rest } : State).withoutCk

/-- The checksum unit and the cipher share no state (R104): an access to a checksum register changes nothing
outside the unit, and no other access and no completion changes the unit. -/
def Obligations.ChecksumUnitIsIndependent : Prop :=
  ∀ (s : State) (v w : Word) (r : Reg),
    (checksumReg r = true →
        (∃ t, exec (readOp r) s = .next t ∧ t.withoutCk = s.withoutCk) ∧
          ∃ t, exec (writeOp v r) s = .next t ∧ t.withoutCk = s.withoutCk) ∧
      (checksumReg r = false →
        (∃ t, exec (readOp r) s = .next t ∧ t.ckView = s.ckView) ∧
          ∃ t, exec (writeOp v r) s = .next t ∧ t.ckView = s.ckView) ∧
      ∃ t, exec (decodeCW w) s = .next t ∧ t.ckView = s.ckView

/-! ### Section cipher -/

/-- `RC4(k, d)` is as long as d, position-wise and an involution (41_section_cipher.md R130). -/
def Obligations.StreamCipherIsInvolution : Prop :=
  ∀ k d e : Bytes,
    (rc4 k d).length = d.length ∧ rc4 k (rc4 k d) = d ∧
      ∀ n, n < d.length → n < e.length → (rc4 k d).getD n 0 ^^^ d.getD n 0 = (rc4 k e).getD n 0 ^^^ e.getD n 0

/-- ENCRYPT g (R139, R140, R147): the tag over the plaintext payload, the ciphertext under the seed of that tag,
OK with RESGEN = g; nothing else outside the hidden state changes. -/
def Obligations.EncryptCompletion : Prop :=
  ∀ (g : Gen) (s : State), s.secbuf.wf = true →
    ∃ t, exec (.encrypt g) s = .next t ∧
      t.secbuf.bytes.take 20 = hmac20 (rootKey s.keyrom g) (s.secbuf.bytes.drop 20) ∧
      t.secbuf.bytes.drop 20 =
        rc4 (hmac20 (rootKey s.keyrom g) (t.secbuf.bytes.take 20)) (s.secbuf.bytes.drop 20) ∧
      (∀ a, 48 ≤ a → t.secbuf.read a = s.secbuf.read a) ∧
      t.forgetHidden = ({ s with
        secbuf := t.secbuf, eng := .idle, pend := 0, done := true, err := .ok, resgen := some g } : State).forgetHidden

/-- ENCRYPT does not read the old AuthTag (R139, R147 (a)). -/
def Obligations.EncryptIgnoresOldTag : Prop :=
  ∀ (g : Gen) (s t : State), s.secbuf.wf = true → t.secbuf.wf = true → s.keyrom = t.keyrom →
    s.secbuf.bytes.drop 20 = t.secbuf.bytes.drop 20 →
    ∃ u v, exec (.encrypt g) s = .next u ∧ exec (.encrypt g) t = .next v ∧ u.secbuf = v.secbuf

/-- DECRYPT (R138, R140, R142, R146): the first generation that verifies commits the deciphered payload after the
stored tag with OK and RESGEN; if none verifies, VERIFICATION_FAILED and SECBUF is untouched. -/
def Obligations.DecryptCompletion : Prop :=
  ∀ s : State, s.secbuf.wf = true →
    ∃ t, exec .decrypt s = .next t ∧
      (∀ g, verifies (rootKey s.keyrom g) s.secbuf.bytes →
        (∀ g' : Gen, g'.code < g.code → ¬verifies (rootKey s.keyrom g') s.secbuf.bytes) →
        t.err = .ok ∧ t.resgen = some g ∧ t.secbuf.bytes.take 20 = s.secbuf.bytes.take 20 ∧
          t.secbuf.bytes.drop 20 =
            rc4 (hmac20 (rootKey s.keyrom g) (s.secbuf.bytes.take 20)) (s.secbuf.bytes.drop 20)) ∧
      ((∀ g, ¬verifies (rootKey s.keyrom g) s.secbuf.bytes) →
        t.err = .verificationFailed ∧ t.resgen = none ∧ t.secbuf = s.secbuf) ∧
      (∀ a, 48 ≤ a → t.secbuf.read a = s.secbuf.read a) ∧
      t.forgetHidden = ({ s with
        secbuf := t.secbuf, eng := .idle, pend := 0, done := true, err := t.err, resgen := t.resgen } :
          State).forgetHidden

/-- The two error completions (R148, R149): the outcome code, SECBUF and everything else unchanged. -/
def Obligations.ErrorCompletions : Prop :=
  ∀ (c : BitVec 8) (w : Word) (s : State),
    (∃ t, exec (.encryptBadgen c) s = .next t ∧
        t.forgetHidden = ({ s with
          eng := .idle, pend := 0, done := true, err := .invalidGeneration, resgen := none } : State).forgetHidden) ∧
      ∃ t, exec (.illegal w) s = .next t ∧
        t.forgetHidden = ({ s with
          eng := .idle, pend := 0, done := true, err := .illegalCommand, resgen := none } : State).forgetHidden

/-- Every completion, whatever the word: DONE set, engine idle, PEND and the hidden registers zero, IRQ = IE; OVR,
CTRL, KEYROM and the run's input unchanged (R140, R141; 60_exceptions.md R216). -/
def Obligations.EveryCompletionRecordsAndScrubs : Prop :=
  ∀ (w : Word) (s : State),
    ∃ t, exec (decodeCW w) s = .next t ∧ t.eng = .idle ∧ t.pend = 0 ∧ t.done = true ∧ t.irq = s.ie ∧
      t.scr = List.replicate 48 0 ∧ t.seed = List.replicate 20 0 ∧ t.ctag = List.replicate 20 0 ∧
      t.attempt = 0 ∧ t.rc4I = 0 ∧ t.rc4J = 0 ∧ t.ovr = s.ovr ∧ t.ie = s.ie ∧ t.keyrom = s.keyrom ∧
      t.inputs = s.inputs ∧ t.response = s.response

/-- A completion does not depend on what acceptance wrote, so running a command word at an idle engine is its
acceptance and immediate completion. That `exec` runs a command word at an idle engine is the model's choice
(log entry 10). -/
def Obligations.CompletionAfterAcceptanceIsCompletion : Prop :=
  ∀ (v w : Word) (s : State), exec (decodeCW w) (s.accept v) = exec (decodeCW w) s

/-- Round trip (R152): ENCRYPT g and then DECRYPT, each by its CMD write and completion, give back the payload and
report g, provided no earlier generation verifies the ciphertext section. -/
def Obligations.EncryptThenDecryptRestoresPayload : Prop :=
  ∀ (g : Gen) (s : State) (rest : List Event), s.secbuf.wf = true → s.eng = .idle →
    s.inputs = .ht ⟨.write, 2, 0x30, BitVec.ofNat 32 (256 * g.code + 2)⟩ :: .engine ::
      .ht ⟨.write, 2, 0x30, 1⟩ :: .engine :: rest →
    ∃ e t, runSteps 2 s = .next e ∧ runSteps 4 s = .next t ∧
      ((∀ g' : Gen, g'.code < g.code → ¬verifies (rootKey s.keyrom g') e.secbuf.bytes) →
        t.err = .ok ∧ t.resgen = some g ∧ t.done = true ∧ t.eng = .idle ∧ t.inputs = rest ∧
          t.secbuf.bytes.drop 20 = s.secbuf.bytes.drop 20 ∧
          t.secbuf.bytes.take 20 = hmac20 (rootKey s.keyrom g) (s.secbuf.bytes.drop 20))

/-- The internal sequence of R150, sub-phase by sub-phase on the hidden state, ends in exactly the state of the
atomic completion R140, for every command word. One keystream byte for each sub-phase, and the attempt index of an
ENCRYPT, are the model's choice (log entry 12). -/
def Obligations.InternalSequenceRefinesCompletion : Prop :=
  ∀ s : State, s.scr.length = 48 →
    ∃ t, runSub subBound (firstSub s.pend, s) = (.finished, t) ∧ exec (decodeCW s.pend) s = .next t

/-! ### Rules of the whole machine -/

/-- No host access touches a command in flight: SECBUF, PEND, ENG, ERR, RESGEN and KEYROM stay
(10_state.md R22, R25; 20_memory.md R74). -/
def Obligations.HostCannotTouchCommandInFlight : Prop :=
  ∀ (h : HT) (s : State), s.eng = .busy →
    ∃ t, exec (decodeHT h) s = .next t ∧ t.secbuf = s.secbuf ∧ t.pend = s.pend ∧ t.eng = .busy ∧
      t.err = s.err ∧ t.resgen = s.resgen ∧ t.keyrom = s.keyrom

/-- The outcome of a command does not depend on the host accesses made while it is in flight, any number of any
kind (20_memory.md R71, R74; 41_section_cipher.md R136). -/
def Obligations.OutcomeIndependentOfInterleaving : Prop :=
  ∀ (hts : List HT) (rest : List Event) (s : State), s.eng = .busy →
    s.inputs = hts.map Event.ht ++ .engine :: rest →
    ∃ t u, runSteps (hts.length + 1) s = .next t ∧ exec (decodeCW s.pend) s = .next u ∧
      t.secbuf = u.secbuf ∧ t.err = u.err ∧ t.resgen = u.resgen ∧ t.eng = .idle ∧ t.done = true ∧
      t.inputs = rest

/-- A SECBUF or CMD write and a completion in either order (60_exceptions.md R219): host first, the write is dropped
and OVR set; engine first, the write is performed after the commit. -/
def Obligations.WriteAndCompletionInEitherOrder : Prop :=
  ∀ (i : Fin 12) (v : Word) (rest : List Event) (s : State), s.eng = .busy →
    ∃ u, exec (decodeCW s.pend) { s with inputs := rest } = .next u ∧
      (∀ h, h = ⟨.write, 2, BitVec.ofNat 8 (4 * i.val), v⟩ ∨ h = (⟨.write, 2, 0x30, v⟩ : HT) →
        runSteps 2 { s with inputs := .ht h :: .engine :: rest } =
          .next { u with ovr := true, response := some .written }) ∧
      runSteps 2 { s with inputs := .engine :: .ht ⟨.write, 2, BitVec.ofNat 8 (4 * i.val), v⟩ :: rest } =
        .next { u with secbuf := u.secbuf.setSecw i.val v, response := some .written } ∧
      runSteps 2 { s with inputs := .engine :: .ht ⟨.write, 2, 0x30, v⟩ :: rest } =
        .next { u with
          pend := v, eng := .busy, done := false, err := .ok, resgen := none, response := some .written }

/-- STATUS.OVR is set by a SECBUF or CMD write while BUSY and by nothing else, and only a STATUS write with bit 2
or reset clears it (10_state.md R27). -/
def Obligations.OverrunFlagLifecycle : Prop :=
  ∀ s t : State, step s = .next t →
    (∀ h rest, s.inputs = .ht h :: rest → s.eng = .busy →
      ((∃ i v, decodeHT h = .secbufWr i v) ∨ ∃ v, decodeHT h = .cmdWr v) → t.ovr = true) ∧
      (∀ h rest v, s.inputs = .ht h :: rest → decodeHT h = .statusWr v → v.getLsbD 2 = true → t.ovr = false) ∧
      (∀ rest, s.inputs = .rst :: rest → t.ovr = false) ∧
      (s.ovr = false → t.ovr = true → s.eng = .busy ∧ ∃ h rest, s.inputs = .ht h :: rest ∧
        ((∃ i v, decodeHT h = .secbufWr i v) ∨ ∃ v, decodeHT h = .cmdWr v)) ∧
      (s.ovr = true → t.ovr = false → (∃ rest, s.inputs = .rst :: rest) ∨
        ∃ h rest v, s.inputs = .ht h :: rest ∧ decodeHT h = .statusWr v ∧ v.getLsbD 2 = true)

/-- STATUS.DONE (10_state.md R26): acceptance, a STATUS write with bit 1 and reset clear it, and every completion sets
it, whatever the outcome; nothing else changes it; and a step keeps "DONE = 1 implies BUSY = 0". That a command in flight
completes when no input is left is the model's choice (log entry 6). -/
def Obligations.DoneFlagLifecycle : Prop :=
  ∀ s t : State, step s = .next t →
    (∀ h rest v, s.inputs = .ht h :: rest → decodeHT h = .cmdWr v → s.eng = .idle → t.done = false) ∧
      (∀ h rest v, s.inputs = .ht h :: rest → decodeHT h = .statusWr v → v.getLsbD 1 = true → t.done = false) ∧
      (∀ rest, s.inputs = .rst :: rest → t.done = false) ∧
      (s.eng = .busy → (s.inputs = [] ∨ ∃ rest, s.inputs = .engine :: rest) → t.done = true) ∧
      (s.done = false → t.done = true → s.eng = .busy ∧ (s.inputs = [] ∨ ∃ rest, s.inputs = .engine :: rest)) ∧
      (s.done = true → t.done = false → (∃ rest, s.inputs = .rst :: rest) ∨
        ∃ h rest, s.inputs = .ht h :: rest ∧
          ((∃ v, decodeHT h = .statusWr v ∧ v.getLsbD 1 = true) ∨ (∃ v, decodeHT h = .cmdWr v ∧ s.eng = .idle))) ∧
      ((s.done = true → s.eng = .idle) → t.done = true → t.eng = .idle)

/-- STATUS.BUSY (10_state.md R25): acceptance sets it, a completion and reset clear it, and nothing else changes it; no
host write clears it. Acceptance latches PEND and completion sets DONE (41_section_cipher.md R135, R140). That a command in
flight completes when no input is left is the model's choice (log entry 6). -/
def Obligations.BusyFlagLifecycle : Prop :=
  ∀ s t : State, step s = .next t →
    (∀ h rest v, s.inputs = .ht h :: rest → decodeHT h = .cmdWr v → t.eng = .busy) ∧
      (s.eng = .busy → (s.inputs = [] ∨ ∃ rest, s.inputs = .engine :: rest) → t.eng = .idle) ∧
      (∀ rest, s.inputs = .rst :: rest → t.eng = .idle) ∧
      (s.eng = .idle → t.eng = .busy →
        ∃ h rest v, s.inputs = .ht h :: rest ∧ decodeHT h = .cmdWr v ∧ t.pend = v) ∧
      (s.eng = .busy → t.eng = .idle → (∃ rest, s.inputs = .rst :: rest) ∨
        (t.done = true ∧ (s.inputs = [] ∨ ∃ rest, s.inputs = .engine :: rest)))

/-- While the ENGINE is idle, before and after the outcome is acknowledged, ERR and RESGEN are replaced only by the next
acceptance or by reset (42_host_registers.md R185, 60_exceptions.md R222). That a turn of the idle ENGINE, or a step without
input, passes is the model's choice (log entry 6). -/
def Obligations.OutcomeStableUntilAcceptance : Prop :=
  ∀ s t : State, s.eng = .idle → step s = .next t →
    (t.err = s.err ∧ t.resgen = s.resgen) ∨ (∃ rest, s.inputs = .rst :: rest) ∨
      ∃ h rest v, s.inputs = .ht h :: rest ∧ decodeHT h = .cmdWr v

/-- No step changes KEYROM: the root keys are immutable, reset included (10_state.md R43, 70_reset_and_hazards.md
R243). -/
def Obligations.KeyromIsImmutable : Prop :=
  ∀ s t : State, step s = .next t → t.keyrom = s.keyrom

/-- No host access reads or writes KEYROM: its result does not depend on the keys (10_state.md R43,
42_host_registers.md R196). -/
def Obligations.HostAccessesNeverReadKeys : Prop :=
  ∀ (h : HT) (k : KeyRom) (s : State),
    ∃ t, exec (decodeHT h) s = .next t ∧ exec (decodeHT h) { s with keyrom := k } = .next { t with keyrom := k }

/-- The hidden state is never observable (41_section_cipher.md R141, 10_state.md R42): two states that agree outside
it stay so under a step, and the host sees the same in both. It holds for every value of the free table S. -/
def Obligations.HiddenStateIsUnobservable : Prop :=
  ∀ s t : State, s.forgetHidden = t.forgetHidden →
    ∃ s' t', step s = .next s' ∧ step t = .next t' ∧ s'.forgetHidden = t'.forgetHidden ∧
      s'.hostView = t'.hostView
end

