-- ==== Sys2Proof/Laws/Bytes.lean ====
section
/-! SUPPORT. The byte orders (00_scope.md R13), in numbers. -/

namespace Sys2Proof.Machine

/-- A little-endian word in numbers. -/
theorem le32_toNat (b0 b1 b2 b3 : Byte) :
    (le32 b0 b1 b2 b3).toNat = b0.toNat + 2 ^ 8 * b1.toNat + 2 ^ 16 * b2.toNat + 2 ^ 24 * b3.toNat := by
  have h0 := b0.isLt
  have h1 := b1.isLt
  have h2 := b2.isLt
  have h3 := b3.isLt
  have e : ∀ x y k : Nat, x < 2 ^ k → x ||| y * 2 ^ k = x + 2 ^ k * y := fun x y k h => by
    rw [Nat.or_comm, Nat.mul_comm, ← Nat.two_pow_add_eq_or_of_lt h, Nat.add_comm]
  have m : ∀ x : Nat, x < 2 ^ 32 → x % 2 ^ 32 = x := fun x h => Nat.mod_eq_of_lt h
  simp only [le32, BitVec.toNat_or, BitVec.toNat_shiftLeft, BitVec.toNat_setWidth, Nat.shiftLeft_eq]
  rw [m b0.toNat (by omega), m b1.toNat (by omega), m b2.toNat (by omega), m b3.toNat (by omega), m _ (by omega),
    m _ (by omega), m _ (by omega), e _ _ 8 h0, e _ _ 16 (by omega), e _ _ 24 (by omega)]

/-- Byte k of a word in numbers. -/
theorem byteOf_toNat (w : Word) (k : Nat) : (byteOf w k).toNat = w.toNat / 2 ^ (8 * k) % 2 ^ 8 := by
  simp only [byteOf, BitVec.extractLsb'_toNat, Nat.shiftRight_eq_div_pow]

/-- Byte k of a word put together from four bytes (20_memory.md R61). -/
theorem byteOf_le32 (b0 b1 b2 b3 : Byte) {k : Nat} (hk : k < 4) :
    byteOf (le32 b0 b1 b2 b3) k = [b0, b1, b2, b3].getD k 0 := by
  have h0 := b0.isLt
  have h1 := b1.isLt
  have h2 := b2.isLt
  have h3 := b3.isLt
  apply BitVec.eq_of_toNat_eq
  rw [byteOf_toNat, le32_toNat]
  obtain rfl | rfl | rfl | rfl : k = 0 ∨ k = 1 ∨ k = 2 ∨ k = 3 := by omega
  all_goals
    simp only [List.getD_cons_zero, List.getD_cons_succ]
    omega

/-- The four bytes of a word give the word back. -/
theorem le32_byteOf (w : Word) : le32 (byteOf w 0) (byteOf w 1) (byteOf w 2) (byteOf w 3) = w := by
  have h := w.isLt
  apply BitVec.eq_of_toNat_eq
  rw [le32_toNat]
  simp only [byteOf_toNat]
  omega

/-- A number's low bytes, read back. -/
theorem natOfBytes_bytesOfNat : ∀ n w : Nat, natOfBytes (bytesOfNat n w) = w % 256 ^ n
  | 0, w => by simp [bytesOfNat, natOfBytes, Nat.mod_one]
  | n + 1, w => by
    have h : (2 : Nat) ^ 8 = 256 := by decide
    simp only [bytesOfNat, natOfBytes, natOfBytes_bytesOfNat n, BitVec.toNat_ofNat]
    rw [h, Nat.pow_succ, Nat.mul_comm (256 ^ n), Nat.mod_mul]

@[simp] theorem bytesOfNat_length : ∀ n w : Nat, (bytesOfNat n w).length = n
  | 0, _ => rfl
  | n + 1, w => by simp [bytesOfNat, bytesOfNat_length n]

@[simp] theorem xorBytes_length (a b : Bytes) : (xorBytes a b).length = min a.length b.length := by simp [xorBytes]

end Sys2Proof.Machine
end

