-- ==== Sys2Proof/Laws/Checksum.lean ====
section
/-! SUPPORT. What the operations of the checksum unit can do, said once (40_checksum.md R100, R105, R106). -/

namespace Sys2Proof.Machine

/-- "the test `s2 <u s` is true exactly when `s + w >= 2^32`" (R100). -/
theorem ult_add_iff (s w : Word) : (s + w).ult s = true ↔ 2 ^ 32 ≤ s.toNat + w.toNat := by
  have hs := s.isLt
  have hw := w.isLt
  simp only [BitVec.ult, BitVec.toNat_add, decide_eq_true_eq]
  omega

/-- CK_ACC with the carry in exact numbers (R100). -/
theorem ckAcc_eq (s c w : Word) :
    ckAcc s c w = (s + w, if 2 ^ 32 ≤ s.toNat + w.toNat then c + 1 else c) := by
  simp only [ckAcc, ult_add_iff]

/-- The loop of CHECKSUM, one word at its end (R102). -/
theorem ckLoop_succ : ∀ (n : Nat) (data : Bytes) (sc : Word × Word),
    ckLoop (n + 1) data sc = ckAcc (ckLoop n data sc).1 (ckLoop n data sc).2
      (le32 (data.getD (4 * n) 0) (data.getD (4 * n + 1) 0) (data.getD (4 * n + 2) 0) (data.getD (4 * n + 3) 0))
  | 0, _, _ => rfl
  | n + 1, data, sc => by
    have hd : ∀ k : Nat, (data.drop 4).getD k 0 = data.getD (k + 4) 0 := fun k => by
      simp [List.getD_eq_getElem?_getD, Nat.add_comm]
    rw [ckLoop, ckLoop_succ n]
    simp only [hd, ckLoop, show 4 * (n + 1) = 4 * n + 4 from by omega]

/-- What a word push does to the lane (R105). -/
theorem State.dropPending_eq (s : State) : s.dropPending = { s with
    ckBbuf := if s.ckBcnt = 0 then s.ckBbuf else ⟨0, 0, 0⟩
    ckBcnt := 0
    ckDrop := s.ckDrop || s.ckBcnt != 0 } := by
  unfold State.dropPending
  by_cases h : s.ckBcnt = 0
  · simp only [h, ne_eq, not_true, if_false, if_true, bne_self_eq_false, Bool.or_false]
    rw [← h]
  · simp only [h, ne_eq, not_false_iff, if_true, if_false, State.emptyLane]
    simp [h]

/-- What a byte push can do (R106): the byte waits in the lane, or completes a word. -/
theorem State.pushLane_cases (s : State) (b : Byte) :
    (s.ckBcnt.val < 3 ∧ ∃ l, s.pushLane b = { s with ckBbuf := l, ckBcnt := s.ckBcnt + 1 }) ∨
      (s.ckBcnt = 3 ∧
        s.pushLane b = (s.accumulate (le32 s.ckBbuf.b0 s.ckBbuf.b1 s.ckBbuf.b2 b)).emptyLane) := by
  unfold State.pushLane
  split <;> rename_i h
  · exact .inl ⟨by simp [h], _, by rw [h]; rfl⟩
  · exact .inl ⟨by simp [h], _, by rw [h]; rfl⟩
  · exact .inl ⟨by simp [h], _, by rw [h]; rfl⟩
  · exact .inr ⟨h, rfl⟩

end Sys2Proof.Machine
end

