-- ==== Sys2Proof/Laws/Memory.lean ====
section
/-! SUPPORT. The laws of SECBUF's memory: a read after a write, every operation keeps the canonical form, and
memories in the canonical form are equal when they read alike. -/

namespace Sys2Proof.Machine

@[simp] theorem Memory.read_nil (a : Nat) : Memory.read [] a = 0 := rfl

theorem Memory.wfFrom_weaken {lo lo' : Nat} (h : lo' ≤ lo) : ∀ {m : Memory}, m.wfFrom lo = true → m.wfFrom lo' = true
  | [], _ => rfl
  | (a, v) :: m, hm => by
    simp only [Memory.wfFrom, Bool.and_eq_true, decide_eq_true_eq] at hm ⊢
    exact ⟨⟨⟨by omega, hm.1.1.2⟩, hm.1.2⟩, hm.2⟩

theorem Memory.read_below {lo a : Nat} (h : a < lo) : ∀ {m : Memory}, m.wfFrom lo = true → m.read a = 0
  | [], _ => rfl
  | (b, w) :: m, hm => by
    simp only [Memory.wfFrom, Bool.and_eq_true, decide_eq_true_eq] at hm
    have hb : b ≠ a := by omega
    simp only [Memory.read, hb, if_false]
    exact Memory.read_below (lo := b + 1) (by omega) hm.2

theorem Memory.read_outside {lo a : Nat} (h : secbufSize ≤ a) : ∀ {m : Memory}, m.wfFrom lo = true → m.read a = 0
  | [], _ => rfl
  | (b, w) :: m, hm => by
    simp only [Memory.wfFrom, Bool.and_eq_true, decide_eq_true_eq] at hm
    have hb : b ≠ a := by omega
    simp only [Memory.read, hb, if_false]
    exact Memory.read_outside h hm.2

theorem Memory.wfFrom_insert {a : Nat} {v : Byte} (ha : a < secbufSize) :
    ∀ {lo : Nat} {m : Memory}, lo ≤ a → m.wfFrom lo = true → (m.insert a v).wfFrom lo = true
  | lo, [], h, _ => by
    unfold Memory.insert
    split
    · rfl
    · rename_i hv
      simpa [Memory.wfFrom, h, ha] using hv
  | lo, (b, w) :: m, h, hm => by
    have hm' := hm
    simp only [Memory.wfFrom, Bool.and_eq_true, decide_eq_true_eq] at hm'
    obtain ⟨⟨⟨h1, h2⟩, h3⟩, h4⟩ := hm'
    unfold Memory.insert
    split
    · split
      · exact hm
      · have : a + 1 ≤ b := by omega
        simp_all [Memory.wfFrom]
    · split
      · subst b
        split
        · exact Memory.wfFrom_weaken (by omega) h4
        · simp_all [Memory.wfFrom]
      · have hi : (Memory.insert m a v).wfFrom (b + 1) = true := Memory.wfFrom_insert ha (by omega) h4
        simp_all [Memory.wfFrom]

theorem Memory.read_insert {a x : Nat} {v : Byte} :
    ∀ {lo : Nat} {m : Memory}, m.wfFrom lo = true → (m.insert a v).read x = if a = x then v else m.read x
  | lo, [], _ => by
    unfold Memory.insert
    split <;> simp_all [Memory.read]
  | lo, (b, w) :: m, hm => by
    have hm' := hm
    simp only [Memory.wfFrom, Bool.and_eq_true, decide_eq_true_eq] at hm'
    obtain ⟨⟨⟨h1, h2⟩, h3⟩, h4⟩ := hm'
    unfold Memory.insert
    split
    · rename_i hab
      split
      · split
        · rename_i hv hax
          have : b ≠ x := by omega
          simp only [Memory.read, this, if_false, hv]
          exact Memory.read_below (lo := b + 1) (by omega) h4
        · rfl
      · by_cases hax : a = x <;> simp [Memory.read, hax]
    · split
      · subst b
        split
        · split
          · rename_i hv hax
            subst hax
            rw [hv]
            exact Memory.read_below (lo := a + 1) (by omega) h4
          · rename_i hax
            simp [Memory.read, hax]
        · by_cases hax : a = x <;> simp [Memory.read, hax]
      · have ih := Memory.read_insert (a := a) (x := x) (v := v) h4
        by_cases hbx : b = x
        · have : a ≠ x := by omega
          simp [Memory.read, hbx, this]
        · simp [Memory.read, hbx, ih]

/-- A read after a byte write. -/
theorem Memory.read_write {m : Memory} (hm : m.wf = true) (a x : Nat) (v : Byte) :
    (m.write a v).read x = if a = x ∧ a < secbufSize then v else m.read x := by
  unfold Memory.write
  split
  · rw [Memory.read_insert hm]; simp [*]
  · simp [*]

/-- A byte write keeps the canonical form. -/
theorem Memory.wf_write {m : Memory} (hm : m.wf = true) (a : Nat) (v : Byte) : (m.write a v).wf = true := by
  unfold Memory.write
  split
  · exact Memory.wfFrom_insert (by assumption) (Nat.zero_le a) hm
  · exact hm

/-- A string write keeps the canonical form. -/
theorem Memory.wf_writeBytes : ∀ {bs : Bytes} {m : Memory} (a : Nat), m.wf = true → (m.writeBytes a bs).wf = true
  | [], _, _, hm => hm
  | _ :: _, _, a, hm => Memory.wf_writeBytes (a + 1) (Memory.wf_write hm a _)

/-- A read after a string write. -/
theorem Memory.read_writeBytes : ∀ {bs : Bytes} {m : Memory} (a x : Nat), m.wf = true → a + bs.length ≤ secbufSize →
    (m.writeBytes a bs).read x = if a ≤ x ∧ x < a + bs.length then bs.getD (x - a) 0 else m.read x
  | [], m, a, x, _, _ => by
    have : ¬(a ≤ x ∧ x < a) := by omega
    simp [Memory.writeBytes, this]
  | b :: bs, m, a, x, hm, hl => by
    simp only [List.length_cons] at hl ⊢
    have ih := Memory.read_writeBytes (bs := bs) (a + 1) x (Memory.wf_write hm a b) (by omega)
    simp only [Memory.writeBytes, ih, Memory.read_write hm]
    by_cases hx : a = x
    · subst hx
      have h1 : ¬(a + 1 ≤ a ∧ a < a + 1 + bs.length) := by omega
      have h2 : a < secbufSize := by omega
      simp [h2]
    · by_cases h1 : a + 1 ≤ x ∧ x < a + 1 + bs.length
      · have h2 : a ≤ x ∧ x < a + (bs.length + 1) := by omega
        have h3 : x - a = (x - (a + 1)) + 1 := by omega
        rw [if_pos h1, if_pos h2, h3, List.getD_cons_succ]
      · have h2 : ¬(a ≤ x ∧ x < a + (bs.length + 1)) := by omega
        rw [if_neg h1, if_neg h2, if_neg (by omega)]

theorem Memory.eq_of_read_eq_from : ∀ {lo : Nat} {m m' : Memory}, m.wfFrom lo = true → m'.wfFrom lo = true →
    (∀ a, m.read a = m'.read a) → m = m'
  | _, [], [], _, _, _ => rfl
  | lo, [], (b, w) :: m', _, h', h => by
    simp only [Memory.wfFrom, Bool.and_eq_true, bne_iff_ne, ne_eq] at h'
    have := h b
    simp [Memory.read] at this
    exact absurd this.symm h'.1.2
  | lo, (b, w) :: m, [], h', _, h => by
    simp only [Memory.wfFrom, Bool.and_eq_true, bne_iff_ne, ne_eq] at h'
    have := h b
    simp [Memory.read] at this
    exact absurd this h'.1.2
  | lo, (b, w) :: m, (b', w') :: m', hm, hm', h => by
    simp only [Memory.wfFrom, Bool.and_eq_true, decide_eq_true_eq, bne_iff_ne, ne_eq] at hm hm'
    have hbb : b = b' := by
      by_contra hne
      rcases Nat.lt_or_gt_of_ne hne with hlt | hlt
      · have h1 := h b
        have h2 : b' ≠ b := Ne.symm hne
        simp only [Memory.read, if_true, h2, if_false] at h1
        rw [Memory.read_below (lo := b' + 1) (by omega) hm'.2] at h1
        exact hm.1.2 h1
      · have h1 := h b'
        simp only [Memory.read, if_true, hne, if_false] at h1
        rw [Memory.read_below (lo := b + 1) (by omega) hm.2] at h1
        exact hm'.1.2 h1.symm
    subst hbb
    have hw : w = w' := by simpa [Memory.read] using h b
    subst hw
    have hmm : m = m' := by
      refine Memory.eq_of_read_eq_from hm.2 hm'.2 fun a => ?_
      by_cases hab : b = a
      · subst hab
        rw [Memory.read_below (lo := b + 1) (by omega) hm.2, Memory.read_below (lo := b + 1) (by omega) hm'.2]
      · simpa [Memory.read, hab] using h a
    rw [hmm]

/-- Memories in the canonical form that read alike are equal. -/
theorem Memory.eq_of_read_eq {m m' : Memory} (hm : m.wf = true) (hm' : m'.wf = true)
    (h : ∀ a, m.read a = m'.read a) : m = m' := Memory.eq_of_read_eq_from hm hm' h

@[simp] theorem bytesLe32_length (w : Word) : (bytesLe32 w).length = 4 := rfl

/-- A host word write keeps the canonical form. -/
theorem Memory.wf_setSecw {m : Memory} (hm : m.wf = true) (i : Nat) (v : Word) : (m.setSecw i v).wf = true :=
  Memory.wf_writeBytes _ hm

/-- A commit keeps the canonical form. -/
theorem Memory.wf_commit {m : Memory} (hm : m.wf = true) (out : Bytes) : (m.commit out).wf = true :=
  Memory.wf_writeBytes _ hm

/-- Byte k of SECW(i) is SECBUF[4i+k] (20_memory.md R61). -/
theorem Memory.byteOf_secw (m : Memory) (i : Nat) {k : Nat} (hk : k < 4) :
    byteOf (m.secw i) k = m.read (4 * i + k) := by
  rw [Memory.secw, byteOf_le32 _ _ _ _ hk]
  obtain rfl | rfl | rfl | rfl : k = 0 ∨ k = 1 ∨ k = 2 ∨ k = 3 := by omega
  all_goals rfl

/-- A read after a host word write (R61). -/
theorem Memory.read_setSecw {m : Memory} (hm : m.wf = true) {i : Nat} (hi : i < 12) (v : Word) (a : Nat) :
    (m.setSecw i v).read a = if 4 * i ≤ a ∧ a < 4 * i + 4 then byteOf v (a - 4 * i) else m.read a := by
  rw [Memory.setSecw, Memory.read_writeBytes _ _ hm (by simp [secbufSize]; omega), bytesLe32_length]
  split
  · rename_i h
    obtain h | h | h | h : a - 4 * i = 0 ∨ a - 4 * i = 1 ∨ a - 4 * i = 2 ∨ a - 4 * i = 3 := by omega
    all_goals
      rw [h]
      rfl
  · rfl

/-- A read after the commit of a section. -/
theorem Memory.read_commit {m : Memory} (hm : m.wf = true) {out : Bytes} (ho : out.length = 48) (a : Nat) :
    (m.commit out).read a = if a < 48 then out.getD a 0 else m.read a := by
  rw [Memory.commit, Memory.read_writeBytes _ _ hm (by simp [ho, secbufSize]), ho]
  simp only [Nat.zero_le, true_and, Nat.zero_add, Nat.sub_zero]

/-- SECBUF after the commit of a section is the section. -/
theorem Memory.bytes_commit {m : Memory} (hm : m.wf = true) {out : Bytes} (ho : out.length = 48) :
    (m.commit out).bytes = out := by
  apply List.ext_getElem
  · simp [Memory.bytes, secbufSize, ho]
  · intro n h1 h2
    have hn : n < 48 := by omega
    simp [Memory.bytes, Memory.read_commit hm ho, hn, h2]

@[simp] theorem Memory.bytes_length (m : Memory) : m.bytes.length = 48 := by simp [Memory.bytes, secbufSize]

/-- The reset memory has the canonical form. -/
theorem State.reset_secbuf_wf : State.reset.secbuf.wf = true := rfl

end Sys2Proof.Machine
end

