-- ==== Sys2Proof/Laws/Primitives.lean ====
section
/-! SUPPORT. The lengths of what the primitives give (41_section_cipher.md R130). -/

namespace Sys2Proof.Machine

@[simp] theorem bytesBe32_length (w : Word) : (bytesBe32 w).length = 4 := rfl

@[simp] theorem Sha1.digest_length (h : Sha1) : h.digest.length = 20 := by simp [Sha1.digest]

@[simp] theorem sha1_length (m : Bytes) : (sha1 m).length = 20 := by rw [sha1, Sha1.digest_length]

/-- "a keyed-hash function producing a 20-byte output" (R130). -/
@[simp] theorem hmac20_length (k m : Bytes) : (hmac20 k m).length = 20 := by simp [hmac20]

@[simp] theorem rc4Stream_length : ∀ (n : Nat) (r : Rc4), (rc4Stream n r).length = n
  | 0, _ => rfl
  | n + 1, r => by simp [rc4Stream, rc4Stream_length n]

/-- `len(RC4(k, d)) = len(d)` (R130). -/
@[simp] theorem rc4_length (k d : Bytes) : (rc4 k d).length = d.length := by simp [rc4, xorBytes]

end Sys2Proof.Machine
end

