-- ==== Sys2Proof/Laws/Cipher.lean ====
section
/-! SUPPORT. What the functions of a completion can answer, said once (41_section_cipher.md R137 to R139). -/

namespace Sys2Proof.Machine

theorem tagOf_length {sec : Bytes} (h : sec.length = 48) : (tagOf sec).length = 20 := by simp [tagOf, h]

theorem payloadOf_eq {sec : Bytes} (h : sec.length = 48) : payloadOf sec = sec.drop 20 :=
  List.take_of_length_le (by simp [h])

theorem payloadOf_length {sec : Bytes} (h : sec.length = 48) : (payloadOf sec).length = 28 := by simp [payloadOf, h]

@[simp] theorem tagOf_append {t p : Bytes} (h : t.length = 20) : tagOf (t ++ p) = t := by simp [tagOf, h]

theorem payloadOf_append {t p : Bytes} (ht : t.length = 20) (hp : p.length = 28) : payloadOf (t ++ p) = p := by
  simp [payloadOf, ht, hp]

/-- A section verifies under a key exactly when the attempt answers ok (R137, R153). -/
theorem verifies_iff {key sec : Bytes} (h : sec.length = 48) : verifies key sec ↔ (attempt key sec).1 = true := by
  simp only [verifies, attempt, payloadOf_eq h, tagOf, beq_iff_eq]

/-- What ENCRYPT_FN gives (R139). -/
theorem encryptFn_spec {key sec : Bytes} (h : sec.length = 48) :
    (encryptFn key sec).length = 48 ∧ tagOf (encryptFn key sec) = hmac20 key (payloadOf sec) ∧
      payloadOf (encryptFn key sec) = rc4 (hmac20 key (hmac20 key (payloadOf sec))) (payloadOf sec) := by
  have hp := payloadOf_length h
  exact ⟨by simp [encryptFn, hp], tagOf_append (by simp), payloadOf_append (by simp) (by simp [hp])⟩

/-- What DECRYPT_FN can answer (R138, R146): the first generation that verifies and the section with its payload
deciphered, or none when no generation verifies. -/
theorem decryptFn_cases (keys : Gen → Bytes) (sec : Bytes) :
    (∃ g, (attempt (keys g) sec).1 = true ∧ (∀ g' : Gen, g'.code < g.code → (attempt (keys g') sec).1 = false) ∧
        decryptFn keys sec = some (g, tagOf sec ++ (attempt (keys g) sec).2)) ∨
      ((∀ g, (attempt (keys g) sec).1 = false) ∧ decryptFn keys sec = none) := by
  simp only [decryptFn, priorityOrder, trial]
  cases h1 : (attempt (keys .gen1) sec).1 with
  | true => exact .inl ⟨.gen1, h1, fun g' hg => by cases g' <;> simp [Gen.code] at hg, rfl⟩
  | false =>
    cases h2 : (attempt (keys .gen2) sec).1 with
    | true => exact .inl ⟨.gen2, h2, fun g' hg => by cases g' <;> simp_all [Gen.code], rfl⟩
    | false =>
      cases h3 : (attempt (keys .gen3) sec).1 with
      | true => exact .inl ⟨.gen3, h3, fun g' hg => by cases g' <;> simp_all [Gen.code], rfl⟩
      | false => exact .inr ⟨fun g => by cases g <;> assumption, rfl⟩

end Sys2Proof.Machine
end

