-- ==== Sys2Proof/Laws/Decode.lean ====
section
/-! SUPPORT. What the two decoders can answer, said once (30_encoding.md R82, R88). -/

namespace Sys2Proof

open Machine

/-- A command word decodes to one of the four command rows. -/
theorem decodeCW_cases (w : Word) :
    decodeCW w = .decrypt ∨ (∃ g, decodeCW w = .encrypt g) ∨ (∃ c, decodeCW w = .encryptBadgen c) ∨
      decodeCW w = .illegal w := by
  unfold decodeCW
  split
  · exact .inr (.inr (.inr rfl))
  · split
    · split
      · exact .inr (.inr (.inr rfl))
      · exact .inl rfl
    · split
      · split
        · exact .inr (.inl ⟨_, rfl⟩)
        · exact .inr (.inr (.inl ⟨_, rfl⟩))
      · exact .inr (.inr (.inr rfl))

/-- A transaction decodes to a BusError, or to the read or the write of the register its offset selects. -/
theorem decodeHT_cases (t : HT) :
    decodeHT t = .buserr t.dir t.size t.off ∨
      (t.dir = .read ∧ decodeHT t = readOp (regOfIndex (t.off.extractLsb' 2 6))) ∨
      (t.dir = .write ∧ decodeHT t = writeOp t.wdata (regOfIndex (t.off.extractLsb' 2 6))) := by
  unfold decodeHT
  split
  · exact .inl rfl
  · cases h : t.dir with
    | read => exact .inr (.inl ⟨rfl, rfl⟩)
    | write => exact .inr (.inr ⟨rfl, rfl⟩)

/-- An admitted read decodes to the read of its register. -/
theorem decodeHT_read {off : BitVec 8} (h : off.extractLsb' 0 2 = 0) (w : Word) :
    decodeHT ⟨.read, 2, off, w⟩ = readOp (regOfIndex (off.extractLsb' 2 6)) := by
  simp [decodeHT, h]

/-- An admitted write decodes to the write of its register. -/
theorem decodeHT_write {off : BitVec 8} (h : off.extractLsb' 0 2 = 0) (w : Word) :
    decodeHT ⟨.write, 2, off, w⟩ = writeOp w (regOfIndex (off.extractLsb' 2 6)) := by
  simp [decodeHT, h]

/-- The offset of a register selects it (10_state.md R23), and is aligned. -/
theorem regOfIndex_secbufW (i : Fin 12) :
    regOfIndex ((BitVec.ofNat 8 (4 * i.val)).extractLsb' 2 6) = .secbufW i ∧
      (BitVec.ofNat 8 (4 * i.val)).extractLsb' 0 2 = 0 :=
  (by decide : ∀ i : Fin 12, regOfIndex ((BitVec.ofNat 8 (4 * i.val)).extractLsb' 2 6) = .secbufW i ∧
    (BitVec.ofNat 8 (4 * i.val)).extractLsb' 0 2 = 0) i

/-- The 43-bit pattern of a transaction, read back (R81). -/
theorem HT.ofPattern_toPattern (t : HT) : HT.ofPattern t.toPattern = t := by
  obtain ⟨d, sz, off, w⟩ := t
  have h4 : (d.bit ++ sz ++ off ++ w : BitVec 43).extractLsb' 0 32 = w := by
    ext i hi
    simp only [BitVec.getElem_extractLsb', BitVec.getLsbD_append, Nat.zero_add, hi, if_true]
    exact BitVec.getLsbD_eq_getElem hi
  have h3 : (d.bit ++ sz ++ off ++ w : BitVec 43).extractLsb' 32 8 = off := by
    ext i hi
    have h1 : ¬32 + i < 32 := by omega
    simp only [BitVec.getElem_extractLsb', BitVec.getLsbD_append, h1, Nat.add_sub_cancel_left, hi, if_true, if_false]
    exact BitVec.getLsbD_eq_getElem hi
  have h2 : (d.bit ++ sz ++ off ++ w : BitVec 43).extractLsb' 40 2 = sz := by
    ext i hi
    have h1 : ¬40 + i < 32 := by omega
    have h2 : ¬40 + i - 32 < 8 := by omega
    have h3 : 40 + i - 32 - 8 = i := by omega
    simp only [BitVec.getElem_extractLsb', BitVec.getLsbD_append, h1, h2, h3, hi, if_true, if_false]
    exact BitVec.getLsbD_eq_getElem hi
  have h1 : (d.bit ++ sz ++ off ++ w : BitVec 43).extractLsb' 42 1 = d.bit := by
    ext i hi
    have h1 : ¬42 + i < 32 := by omega
    have h2 : ¬42 + i - 32 < 8 := by omega
    have h3 : ¬42 + i - 32 - 8 < 2 := by omega
    have h4 : 42 + i - 32 - 8 - 2 = i := by omega
    simp only [BitVec.getElem_extractLsb', BitVec.getLsbD_append, h1, h2, h3, h4, if_false]
    exact BitVec.getLsbD_eq_getElem hi
  simp only [HT.ofPattern, HT.toPattern, h1, h2, h3, h4]
  cases d <;> rfl

/-- A register's offset is aligned. -/
theorem Reg.off_aligned (r : Reg) : (r.index ++ (0 : BitVec 2)).extractLsb' 0 2 = 0 := by
  ext i hi
  simp only [BitVec.getElem_extractLsb', BitVec.getLsbD_append, Nat.zero_add, hi, if_true]
  exact BitVec.getLsbD_eq_getElem hi

/-- A register's offset has its index. -/
theorem Reg.off_index (r : Reg) : (r.index ++ (0 : BitVec 2)).extractLsb' 2 6 = r.index := by
  ext i hi
  have h1 : ¬2 + i < 2 := by omega
  simp only [BitVec.getElem_extractLsb', BitVec.getLsbD_append, h1, if_false, Nat.add_sub_cancel_left]
  exact BitVec.getLsbD_eq_getElem hi

theorem decodeHT_readHT (r : Reg) : decodeHT (readHT r) = readOp (regOfIndex r.index) := by
  rw [readHT, decodeHT_read (Reg.off_aligned r), Reg.off_index]

theorem decodeHT_writeHT (r : Reg) (v : Word) : decodeHT (writeHT r v) = writeOp v (regOfIndex r.index) := by
  rw [writeHT, decodeHT_write (Reg.off_aligned r), Reg.off_index]

/-- The bytes of a command word decode as the word. -/
theorem decodeBytes_cw (w : Word) : decodeBytes (Code.cw w).bytes = .ok (decodeCW w) := by
  rw [Code.bytes, decodeBytes, if_pos (bytesOfNat_length _ _), natOfBytes_bytesOfNat,
    Nat.mod_eq_of_lt (by have := w.isLt; omega), BitVec.ofNat_toNat, BitVec.setWidth_eq]

/-- The bytes of a transaction decode as the transaction. -/
theorem decodeBytes_ht (t : HT) : decodeBytes (Code.ht t).bytes = .ok (decodeHT t) := by
  have := t.toPattern.isLt
  rw [Code.bytes, decodeBytes, if_neg (by rw [bytesOfNat_length]; decide), if_pos (bytesOfNat_length _ _),
    natOfBytes_bytesOfNat, Nat.mod_eq_of_lt (by omega), if_pos this, BitVec.ofNat_toNat, BitVec.setWidth_eq,
    HT.ofPattern_toPattern]

end Sys2Proof
end

