-- ==== Sys2Proof/Laws/State.lean ====
section
/-! SUPPORT. What each update of the state does to each field, so that no later proof unfolds a record update. -/

namespace Sys2Proof.Machine

variable (s : State) (off : BitVec 8)

@[simp] theorem State.readOkay_secbuf (v : Word) : (s.readOkay v).secbuf = s.secbuf := rfl
@[simp] theorem State.readOkay_eng (v : Word) : (s.readOkay v).eng = s.eng := rfl
@[simp] theorem State.readOkay_pend (v : Word) : (s.readOkay v).pend = s.pend := rfl
@[simp] theorem State.readOkay_done (v : Word) : (s.readOkay v).done = s.done := rfl
@[simp] theorem State.readOkay_ovr (v : Word) : (s.readOkay v).ovr = s.ovr := rfl
@[simp] theorem State.readOkay_err (v : Word) : (s.readOkay v).err = s.err := rfl
@[simp] theorem State.readOkay_resgen (v : Word) : (s.readOkay v).resgen = s.resgen := rfl
@[simp] theorem State.readOkay_ie (v : Word) : (s.readOkay v).ie = s.ie := rfl
@[simp] theorem State.readOkay_ckSum (v : Word) : (s.readOkay v).ckSum = s.ckSum := rfl
@[simp] theorem State.readOkay_ckCarry (v : Word) : (s.readOkay v).ckCarry = s.ckCarry := rfl
@[simp] theorem State.readOkay_ckBbuf (v : Word) : (s.readOkay v).ckBbuf = s.ckBbuf := rfl
@[simp] theorem State.readOkay_ckBcnt (v : Word) : (s.readOkay v).ckBcnt = s.ckBcnt := rfl
@[simp] theorem State.readOkay_ckDrop (v : Word) : (s.readOkay v).ckDrop = s.ckDrop := rfl
@[simp] theorem State.readOkay_scr (v : Word) : (s.readOkay v).scr = s.scr := rfl
@[simp] theorem State.readOkay_seed (v : Word) : (s.readOkay v).seed = s.seed := rfl
@[simp] theorem State.readOkay_ctag (v : Word) : (s.readOkay v).ctag = s.ctag := rfl
@[simp] theorem State.readOkay_attempt (v : Word) : (s.readOkay v).attempt = s.attempt := rfl
@[simp] theorem State.readOkay_rc4S (v : Word) : (s.readOkay v).rc4S = s.rc4S := rfl
@[simp] theorem State.readOkay_rc4I (v : Word) : (s.readOkay v).rc4I = s.rc4I := rfl
@[simp] theorem State.readOkay_rc4J (v : Word) : (s.readOkay v).rc4J = s.rc4J := rfl
@[simp] theorem State.readOkay_keyrom (v : Word) : (s.readOkay v).keyrom = s.keyrom := rfl
@[simp] theorem State.readOkay_response (v : Word) : (s.readOkay v).response = some (.rdata v) := rfl
@[simp] theorem State.readOkay_inputs (v : Word) : (s.readOkay v).inputs = s.inputs := rfl
@[simp] theorem State.readOkay_freeDraws (v : Word) : (s.readOkay v).freeDraws = s.freeDraws := rfl

@[simp] theorem State.writeOkay_secbuf : s.writeOkay.secbuf = s.secbuf := rfl
@[simp] theorem State.writeOkay_eng : s.writeOkay.eng = s.eng := rfl
@[simp] theorem State.writeOkay_pend : s.writeOkay.pend = s.pend := rfl
@[simp] theorem State.writeOkay_done : s.writeOkay.done = s.done := rfl
@[simp] theorem State.writeOkay_ovr : s.writeOkay.ovr = s.ovr := rfl
@[simp] theorem State.writeOkay_err : s.writeOkay.err = s.err := rfl
@[simp] theorem State.writeOkay_resgen : s.writeOkay.resgen = s.resgen := rfl
@[simp] theorem State.writeOkay_ie : s.writeOkay.ie = s.ie := rfl
@[simp] theorem State.writeOkay_ckSum : s.writeOkay.ckSum = s.ckSum := rfl
@[simp] theorem State.writeOkay_ckCarry : s.writeOkay.ckCarry = s.ckCarry := rfl
@[simp] theorem State.writeOkay_ckBbuf : s.writeOkay.ckBbuf = s.ckBbuf := rfl
@[simp] theorem State.writeOkay_ckBcnt : s.writeOkay.ckBcnt = s.ckBcnt := rfl
@[simp] theorem State.writeOkay_ckDrop : s.writeOkay.ckDrop = s.ckDrop := rfl
@[simp] theorem State.writeOkay_scr : s.writeOkay.scr = s.scr := rfl
@[simp] theorem State.writeOkay_seed : s.writeOkay.seed = s.seed := rfl
@[simp] theorem State.writeOkay_ctag : s.writeOkay.ctag = s.ctag := rfl
@[simp] theorem State.writeOkay_attempt : s.writeOkay.attempt = s.attempt := rfl
@[simp] theorem State.writeOkay_rc4S : s.writeOkay.rc4S = s.rc4S := rfl
@[simp] theorem State.writeOkay_rc4I : s.writeOkay.rc4I = s.rc4I := rfl
@[simp] theorem State.writeOkay_rc4J : s.writeOkay.rc4J = s.rc4J := rfl
@[simp] theorem State.writeOkay_keyrom : s.writeOkay.keyrom = s.keyrom := rfl
@[simp] theorem State.writeOkay_response : s.writeOkay.response = some .written := rfl
@[simp] theorem State.writeOkay_inputs : s.writeOkay.inputs = s.inputs := rfl
@[simp] theorem State.writeOkay_freeDraws : s.writeOkay.freeDraws = s.freeDraws := rfl

@[simp] theorem State.busError_secbuf : (s.busError off).secbuf = s.secbuf := rfl
@[simp] theorem State.busError_eng : (s.busError off).eng = s.eng := rfl
@[simp] theorem State.busError_pend : (s.busError off).pend = s.pend := rfl
@[simp] theorem State.busError_done : (s.busError off).done = s.done := rfl
@[simp] theorem State.busError_ovr : (s.busError off).ovr = s.ovr := rfl
@[simp] theorem State.busError_err : (s.busError off).err = s.err := rfl
@[simp] theorem State.busError_resgen : (s.busError off).resgen = s.resgen := rfl
@[simp] theorem State.busError_ie : (s.busError off).ie = s.ie := rfl
@[simp] theorem State.busError_ckSum : (s.busError off).ckSum = s.ckSum := rfl
@[simp] theorem State.busError_ckCarry : (s.busError off).ckCarry = s.ckCarry := rfl
@[simp] theorem State.busError_ckBbuf : (s.busError off).ckBbuf = s.ckBbuf := rfl
@[simp] theorem State.busError_ckBcnt : (s.busError off).ckBcnt = s.ckBcnt := rfl
@[simp] theorem State.busError_ckDrop : (s.busError off).ckDrop = s.ckDrop := rfl
@[simp] theorem State.busError_scr : (s.busError off).scr = s.scr := rfl
@[simp] theorem State.busError_seed : (s.busError off).seed = s.seed := rfl
@[simp] theorem State.busError_ctag : (s.busError off).ctag = s.ctag := rfl
@[simp] theorem State.busError_attempt : (s.busError off).attempt = s.attempt := rfl
@[simp] theorem State.busError_rc4S : (s.busError off).rc4S = s.rc4S := rfl
@[simp] theorem State.busError_rc4I : (s.busError off).rc4I = s.rc4I := rfl
@[simp] theorem State.busError_rc4J : (s.busError off).rc4J = s.rc4J := rfl
@[simp] theorem State.busError_keyrom : (s.busError off).keyrom = s.keyrom := rfl
@[simp] theorem State.busError_response : (s.busError off).response = some (.error off) := rfl
@[simp] theorem State.busError_inputs : (s.busError off).inputs = s.inputs := rfl
@[simp] theorem State.busError_freeDraws : (s.busError off).freeDraws = s.freeDraws := rfl

@[simp] theorem State.dropWrite_secbuf : s.dropWrite.secbuf = s.secbuf := rfl
@[simp] theorem State.dropWrite_eng : s.dropWrite.eng = s.eng := rfl
@[simp] theorem State.dropWrite_pend : s.dropWrite.pend = s.pend := rfl
@[simp] theorem State.dropWrite_done : s.dropWrite.done = s.done := rfl
@[simp] theorem State.dropWrite_ovr : s.dropWrite.ovr = true := rfl
@[simp] theorem State.dropWrite_err : s.dropWrite.err = s.err := rfl
@[simp] theorem State.dropWrite_resgen : s.dropWrite.resgen = s.resgen := rfl
@[simp] theorem State.dropWrite_ie : s.dropWrite.ie = s.ie := rfl
@[simp] theorem State.dropWrite_ckSum : s.dropWrite.ckSum = s.ckSum := rfl
@[simp] theorem State.dropWrite_ckCarry : s.dropWrite.ckCarry = s.ckCarry := rfl
@[simp] theorem State.dropWrite_ckBbuf : s.dropWrite.ckBbuf = s.ckBbuf := rfl
@[simp] theorem State.dropWrite_ckBcnt : s.dropWrite.ckBcnt = s.ckBcnt := rfl
@[simp] theorem State.dropWrite_ckDrop : s.dropWrite.ckDrop = s.ckDrop := rfl
@[simp] theorem State.dropWrite_scr : s.dropWrite.scr = s.scr := rfl
@[simp] theorem State.dropWrite_seed : s.dropWrite.seed = s.seed := rfl
@[simp] theorem State.dropWrite_ctag : s.dropWrite.ctag = s.ctag := rfl
@[simp] theorem State.dropWrite_attempt : s.dropWrite.attempt = s.attempt := rfl
@[simp] theorem State.dropWrite_rc4S : s.dropWrite.rc4S = s.rc4S := rfl
@[simp] theorem State.dropWrite_rc4I : s.dropWrite.rc4I = s.rc4I := rfl
@[simp] theorem State.dropWrite_rc4J : s.dropWrite.rc4J = s.rc4J := rfl
@[simp] theorem State.dropWrite_keyrom : s.dropWrite.keyrom = s.keyrom := rfl
@[simp] theorem State.dropWrite_response : s.dropWrite.response = some .written := rfl
@[simp] theorem State.dropWrite_inputs : s.dropWrite.inputs = s.inputs := rfl
@[simp] theorem State.dropWrite_freeDraws : s.dropWrite.freeDraws = s.freeDraws := rfl

@[simp] theorem State.accept_secbuf (w : Word) : (s.accept w).secbuf = s.secbuf := rfl
@[simp] theorem State.accept_eng (w : Word) : (s.accept w).eng = .busy := rfl
@[simp] theorem State.accept_pend (w : Word) : (s.accept w).pend = w := rfl
@[simp] theorem State.accept_done (w : Word) : (s.accept w).done = false := rfl
@[simp] theorem State.accept_ovr (w : Word) : (s.accept w).ovr = s.ovr := rfl
@[simp] theorem State.accept_err (w : Word) : (s.accept w).err = .ok := rfl
@[simp] theorem State.accept_resgen (w : Word) : (s.accept w).resgen = none := rfl
@[simp] theorem State.accept_ie (w : Word) : (s.accept w).ie = s.ie := rfl
@[simp] theorem State.accept_ckSum (w : Word) : (s.accept w).ckSum = s.ckSum := rfl
@[simp] theorem State.accept_ckCarry (w : Word) : (s.accept w).ckCarry = s.ckCarry := rfl
@[simp] theorem State.accept_ckBbuf (w : Word) : (s.accept w).ckBbuf = s.ckBbuf := rfl
@[simp] theorem State.accept_ckBcnt (w : Word) : (s.accept w).ckBcnt = s.ckBcnt := rfl
@[simp] theorem State.accept_ckDrop (w : Word) : (s.accept w).ckDrop = s.ckDrop := rfl
@[simp] theorem State.accept_scr (w : Word) : (s.accept w).scr = s.scr := rfl
@[simp] theorem State.accept_seed (w : Word) : (s.accept w).seed = s.seed := rfl
@[simp] theorem State.accept_ctag (w : Word) : (s.accept w).ctag = s.ctag := rfl
@[simp] theorem State.accept_attempt (w : Word) : (s.accept w).attempt = s.attempt := rfl
@[simp] theorem State.accept_rc4S (w : Word) : (s.accept w).rc4S = s.rc4S := rfl
@[simp] theorem State.accept_rc4I (w : Word) : (s.accept w).rc4I = s.rc4I := rfl
@[simp] theorem State.accept_rc4J (w : Word) : (s.accept w).rc4J = s.rc4J := rfl
@[simp] theorem State.accept_keyrom (w : Word) : (s.accept w).keyrom = s.keyrom := rfl
@[simp] theorem State.accept_response (w : Word) : (s.accept w).response = s.response := rfl
@[simp] theorem State.accept_inputs (w : Word) : (s.accept w).inputs = s.inputs := rfl
@[simp] theorem State.accept_freeDraws (w : Word) : (s.accept w).freeDraws = s.freeDraws := rfl

@[simp] theorem State.scrub_secbuf : s.scrub.secbuf = s.secbuf := rfl
@[simp] theorem State.scrub_eng : s.scrub.eng = s.eng := rfl
@[simp] theorem State.scrub_pend : s.scrub.pend = s.pend := rfl
@[simp] theorem State.scrub_done : s.scrub.done = s.done := rfl
@[simp] theorem State.scrub_ovr : s.scrub.ovr = s.ovr := rfl
@[simp] theorem State.scrub_err : s.scrub.err = s.err := rfl
@[simp] theorem State.scrub_resgen : s.scrub.resgen = s.resgen := rfl
@[simp] theorem State.scrub_ie : s.scrub.ie = s.ie := rfl
@[simp] theorem State.scrub_ckSum : s.scrub.ckSum = s.ckSum := rfl
@[simp] theorem State.scrub_ckCarry : s.scrub.ckCarry = s.ckCarry := rfl
@[simp] theorem State.scrub_ckBbuf : s.scrub.ckBbuf = s.ckBbuf := rfl
@[simp] theorem State.scrub_ckBcnt : s.scrub.ckBcnt = s.ckBcnt := rfl
@[simp] theorem State.scrub_ckDrop : s.scrub.ckDrop = s.ckDrop := rfl
@[simp] theorem State.scrub_scr : s.scrub.scr = List.replicate 48 0 := rfl
@[simp] theorem State.scrub_seed : s.scrub.seed = List.replicate 20 0 := rfl
@[simp] theorem State.scrub_ctag : s.scrub.ctag = List.replicate 20 0 := rfl
@[simp] theorem State.scrub_attempt : s.scrub.attempt = 0 := rfl
@[simp] theorem State.scrub_rc4S : s.scrub.rc4S = Config.unspecifiedS s.freeDraws := rfl
@[simp] theorem State.scrub_rc4I : s.scrub.rc4I = 0 := rfl
@[simp] theorem State.scrub_rc4J : s.scrub.rc4J = 0 := rfl
@[simp] theorem State.scrub_keyrom : s.scrub.keyrom = s.keyrom := rfl
@[simp] theorem State.scrub_response : s.scrub.response = s.response := rfl
@[simp] theorem State.scrub_inputs : s.scrub.inputs = s.inputs := rfl
@[simp] theorem State.scrub_freeDraws : s.scrub.freeDraws = s.freeDraws + 1 := rfl

@[simp] theorem State.complete_secbuf (e : ErrCode) (g : Option Gen) : (s.complete e g).secbuf = s.secbuf := rfl
@[simp] theorem State.complete_eng (e : ErrCode) (g : Option Gen) : (s.complete e g).eng = .idle := rfl
@[simp] theorem State.complete_pend (e : ErrCode) (g : Option Gen) : (s.complete e g).pend = 0 := rfl
@[simp] theorem State.complete_done (e : ErrCode) (g : Option Gen) : (s.complete e g).done = true := rfl
@[simp] theorem State.complete_ovr (e : ErrCode) (g : Option Gen) : (s.complete e g).ovr = s.ovr := rfl
@[simp] theorem State.complete_err (e : ErrCode) (g : Option Gen) : (s.complete e g).err = e := rfl
@[simp] theorem State.complete_resgen (e : ErrCode) (g : Option Gen) : (s.complete e g).resgen = g := rfl
@[simp] theorem State.complete_ie (e : ErrCode) (g : Option Gen) : (s.complete e g).ie = s.ie := rfl
@[simp] theorem State.complete_ckSum (e : ErrCode) (g : Option Gen) : (s.complete e g).ckSum = s.ckSum := rfl
@[simp] theorem State.complete_ckCarry (e : ErrCode) (g : Option Gen) : (s.complete e g).ckCarry = s.ckCarry := rfl
@[simp] theorem State.complete_ckBbuf (e : ErrCode) (g : Option Gen) : (s.complete e g).ckBbuf = s.ckBbuf := rfl
@[simp] theorem State.complete_ckBcnt (e : ErrCode) (g : Option Gen) : (s.complete e g).ckBcnt = s.ckBcnt := rfl
@[simp] theorem State.complete_ckDrop (e : ErrCode) (g : Option Gen) : (s.complete e g).ckDrop = s.ckDrop := rfl
@[simp] theorem State.complete_scr (e : ErrCode) (g : Option Gen) : (s.complete e g).scr = List.replicate 48 0 := rfl
@[simp] theorem State.complete_seed (e : ErrCode) (g : Option Gen) :
    (s.complete e g).seed = List.replicate 20 0 := rfl
@[simp] theorem State.complete_ctag (e : ErrCode) (g : Option Gen) :
    (s.complete e g).ctag = List.replicate 20 0 := rfl
@[simp] theorem State.complete_attempt (e : ErrCode) (g : Option Gen) : (s.complete e g).attempt = 0 := rfl
@[simp] theorem State.complete_rc4S (e : ErrCode) (g : Option Gen) :
    (s.complete e g).rc4S = Config.unspecifiedS s.freeDraws := rfl
@[simp] theorem State.complete_rc4I (e : ErrCode) (g : Option Gen) : (s.complete e g).rc4I = 0 := rfl
@[simp] theorem State.complete_rc4J (e : ErrCode) (g : Option Gen) : (s.complete e g).rc4J = 0 := rfl
@[simp] theorem State.complete_keyrom (e : ErrCode) (g : Option Gen) : (s.complete e g).keyrom = s.keyrom := rfl
@[simp] theorem State.complete_response (e : ErrCode) (g : Option Gen) : (s.complete e g).response = s.response := rfl
@[simp] theorem State.complete_inputs (e : ErrCode) (g : Option Gen) : (s.complete e g).inputs = s.inputs := rfl
@[simp] theorem State.complete_freeDraws (e : ErrCode) (g : Option Gen) :
    (s.complete e g).freeDraws = s.freeDraws + 1 := rfl

@[simp] theorem State.acknowledge_secbuf (v : Word) : (s.acknowledge v).secbuf = s.secbuf := rfl
@[simp] theorem State.acknowledge_eng (v : Word) : (s.acknowledge v).eng = s.eng := rfl
@[simp] theorem State.acknowledge_pend (v : Word) : (s.acknowledge v).pend = s.pend := rfl
@[simp] theorem State.acknowledge_done (v : Word) : (s.acknowledge v).done = w1c s.done (wClearDone v) := rfl
@[simp] theorem State.acknowledge_ovr (v : Word) : (s.acknowledge v).ovr = w1c s.ovr (wClearOvr v) := rfl
@[simp] theorem State.acknowledge_err (v : Word) : (s.acknowledge v).err = s.err := rfl
@[simp] theorem State.acknowledge_resgen (v : Word) : (s.acknowledge v).resgen = s.resgen := rfl
@[simp] theorem State.acknowledge_ie (v : Word) : (s.acknowledge v).ie = s.ie := rfl
@[simp] theorem State.acknowledge_ckSum (v : Word) : (s.acknowledge v).ckSum = s.ckSum := rfl
@[simp] theorem State.acknowledge_ckCarry (v : Word) : (s.acknowledge v).ckCarry = s.ckCarry := rfl
@[simp] theorem State.acknowledge_ckBbuf (v : Word) : (s.acknowledge v).ckBbuf = s.ckBbuf := rfl
@[simp] theorem State.acknowledge_ckBcnt (v : Word) : (s.acknowledge v).ckBcnt = s.ckBcnt := rfl
@[simp] theorem State.acknowledge_ckDrop (v : Word) : (s.acknowledge v).ckDrop = s.ckDrop := rfl
@[simp] theorem State.acknowledge_scr (v : Word) : (s.acknowledge v).scr = s.scr := rfl
@[simp] theorem State.acknowledge_seed (v : Word) : (s.acknowledge v).seed = s.seed := rfl
@[simp] theorem State.acknowledge_ctag (v : Word) : (s.acknowledge v).ctag = s.ctag := rfl
@[simp] theorem State.acknowledge_attempt (v : Word) : (s.acknowledge v).attempt = s.attempt := rfl
@[simp] theorem State.acknowledge_rc4S (v : Word) : (s.acknowledge v).rc4S = s.rc4S := rfl
@[simp] theorem State.acknowledge_rc4I (v : Word) : (s.acknowledge v).rc4I = s.rc4I := rfl
@[simp] theorem State.acknowledge_rc4J (v : Word) : (s.acknowledge v).rc4J = s.rc4J := rfl
@[simp] theorem State.acknowledge_keyrom (v : Word) : (s.acknowledge v).keyrom = s.keyrom := rfl
@[simp] theorem State.acknowledge_response (v : Word) : (s.acknowledge v).response = s.response := rfl
@[simp] theorem State.acknowledge_inputs (v : Word) : (s.acknowledge v).inputs = s.inputs := rfl
@[simp] theorem State.acknowledge_freeDraws (v : Word) : (s.acknowledge v).freeDraws = s.freeDraws := rfl

@[simp] theorem State.resetEvent_secbuf : s.resetEvent.secbuf = [] := rfl
@[simp] theorem State.resetEvent_eng : s.resetEvent.eng = .idle := rfl
@[simp] theorem State.resetEvent_pend : s.resetEvent.pend = 0 := rfl
@[simp] theorem State.resetEvent_done : s.resetEvent.done = false := rfl
@[simp] theorem State.resetEvent_ovr : s.resetEvent.ovr = false := rfl
@[simp] theorem State.resetEvent_err : s.resetEvent.err = .ok := rfl
@[simp] theorem State.resetEvent_resgen : s.resetEvent.resgen = none := rfl
@[simp] theorem State.resetEvent_ie : s.resetEvent.ie = false := rfl
@[simp] theorem State.resetEvent_ckSum : s.resetEvent.ckSum = 0 := rfl
@[simp] theorem State.resetEvent_ckCarry : s.resetEvent.ckCarry = 0 := rfl
@[simp] theorem State.resetEvent_ckBbuf : s.resetEvent.ckBbuf = ⟨0, 0, 0⟩ := rfl
@[simp] theorem State.resetEvent_ckBcnt : s.resetEvent.ckBcnt = 0 := rfl
@[simp] theorem State.resetEvent_ckDrop : s.resetEvent.ckDrop = false := rfl
@[simp] theorem State.resetEvent_scr : s.resetEvent.scr = List.replicate 48 0 := rfl
@[simp] theorem State.resetEvent_seed : s.resetEvent.seed = List.replicate 20 0 := rfl
@[simp] theorem State.resetEvent_ctag : s.resetEvent.ctag = List.replicate 20 0 := rfl
@[simp] theorem State.resetEvent_attempt : s.resetEvent.attempt = 0 := rfl
@[simp] theorem State.resetEvent_rc4S : s.resetEvent.rc4S = Config.unspecifiedS s.freeDraws := rfl
@[simp] theorem State.resetEvent_rc4I : s.resetEvent.rc4I = 0 := rfl
@[simp] theorem State.resetEvent_rc4J : s.resetEvent.rc4J = 0 := rfl
@[simp] theorem State.resetEvent_keyrom : s.resetEvent.keyrom = s.keyrom := rfl
@[simp] theorem State.resetEvent_response : s.resetEvent.response = none := rfl
@[simp] theorem State.resetEvent_inputs : s.resetEvent.inputs = s.inputs := rfl
@[simp] theorem State.resetEvent_freeDraws : s.resetEvent.freeDraws = s.freeDraws + 1 := rfl

@[simp] theorem State.accumulate_secbuf (w : Word) : (s.accumulate w).secbuf = s.secbuf := rfl
@[simp] theorem State.accumulate_eng (w : Word) : (s.accumulate w).eng = s.eng := rfl
@[simp] theorem State.accumulate_pend (w : Word) : (s.accumulate w).pend = s.pend := rfl
@[simp] theorem State.accumulate_done (w : Word) : (s.accumulate w).done = s.done := rfl
@[simp] theorem State.accumulate_ovr (w : Word) : (s.accumulate w).ovr = s.ovr := rfl
@[simp] theorem State.accumulate_err (w : Word) : (s.accumulate w).err = s.err := rfl
@[simp] theorem State.accumulate_resgen (w : Word) : (s.accumulate w).resgen = s.resgen := rfl
@[simp] theorem State.accumulate_ie (w : Word) : (s.accumulate w).ie = s.ie := rfl
@[simp] theorem State.accumulate_ckSum (w : Word) : (s.accumulate w).ckSum = (ckAcc s.ckSum s.ckCarry w).1 := rfl
@[simp] theorem State.accumulate_ckCarry (w : Word) : (s.accumulate w).ckCarry = (ckAcc s.ckSum s.ckCarry w).2 := rfl
@[simp] theorem State.accumulate_ckBbuf (w : Word) : (s.accumulate w).ckBbuf = s.ckBbuf := rfl
@[simp] theorem State.accumulate_ckBcnt (w : Word) : (s.accumulate w).ckBcnt = s.ckBcnt := rfl
@[simp] theorem State.accumulate_ckDrop (w : Word) : (s.accumulate w).ckDrop = s.ckDrop := rfl
@[simp] theorem State.accumulate_scr (w : Word) : (s.accumulate w).scr = s.scr := rfl
@[simp] theorem State.accumulate_seed (w : Word) : (s.accumulate w).seed = s.seed := rfl
@[simp] theorem State.accumulate_ctag (w : Word) : (s.accumulate w).ctag = s.ctag := rfl
@[simp] theorem State.accumulate_attempt (w : Word) : (s.accumulate w).attempt = s.attempt := rfl
@[simp] theorem State.accumulate_rc4S (w : Word) : (s.accumulate w).rc4S = s.rc4S := rfl
@[simp] theorem State.accumulate_rc4I (w : Word) : (s.accumulate w).rc4I = s.rc4I := rfl
@[simp] theorem State.accumulate_rc4J (w : Word) : (s.accumulate w).rc4J = s.rc4J := rfl
@[simp] theorem State.accumulate_keyrom (w : Word) : (s.accumulate w).keyrom = s.keyrom := rfl
@[simp] theorem State.accumulate_response (w : Word) : (s.accumulate w).response = s.response := rfl
@[simp] theorem State.accumulate_inputs (w : Word) : (s.accumulate w).inputs = s.inputs := rfl
@[simp] theorem State.accumulate_freeDraws (w : Word) : (s.accumulate w).freeDraws = s.freeDraws := rfl

@[simp] theorem State.emptyLane_secbuf : s.emptyLane.secbuf = s.secbuf := rfl
@[simp] theorem State.emptyLane_eng : s.emptyLane.eng = s.eng := rfl
@[simp] theorem State.emptyLane_pend : s.emptyLane.pend = s.pend := rfl
@[simp] theorem State.emptyLane_done : s.emptyLane.done = s.done := rfl
@[simp] theorem State.emptyLane_ovr : s.emptyLane.ovr = s.ovr := rfl
@[simp] theorem State.emptyLane_err : s.emptyLane.err = s.err := rfl
@[simp] theorem State.emptyLane_resgen : s.emptyLane.resgen = s.resgen := rfl
@[simp] theorem State.emptyLane_ie : s.emptyLane.ie = s.ie := rfl
@[simp] theorem State.emptyLane_ckSum : s.emptyLane.ckSum = s.ckSum := rfl
@[simp] theorem State.emptyLane_ckCarry : s.emptyLane.ckCarry = s.ckCarry := rfl
@[simp] theorem State.emptyLane_ckBbuf : s.emptyLane.ckBbuf = ⟨0, 0, 0⟩ := rfl
@[simp] theorem State.emptyLane_ckBcnt : s.emptyLane.ckBcnt = 0 := rfl
@[simp] theorem State.emptyLane_ckDrop : s.emptyLane.ckDrop = s.ckDrop := rfl
@[simp] theorem State.emptyLane_scr : s.emptyLane.scr = s.scr := rfl
@[simp] theorem State.emptyLane_seed : s.emptyLane.seed = s.seed := rfl
@[simp] theorem State.emptyLane_ctag : s.emptyLane.ctag = s.ctag := rfl
@[simp] theorem State.emptyLane_attempt : s.emptyLane.attempt = s.attempt := rfl
@[simp] theorem State.emptyLane_rc4S : s.emptyLane.rc4S = s.rc4S := rfl
@[simp] theorem State.emptyLane_rc4I : s.emptyLane.rc4I = s.rc4I := rfl
@[simp] theorem State.emptyLane_rc4J : s.emptyLane.rc4J = s.rc4J := rfl
@[simp] theorem State.emptyLane_keyrom : s.emptyLane.keyrom = s.keyrom := rfl
@[simp] theorem State.emptyLane_response : s.emptyLane.response = s.response := rfl
@[simp] theorem State.emptyLane_inputs : s.emptyLane.inputs = s.inputs := rfl
@[simp] theorem State.emptyLane_freeDraws : s.emptyLane.freeDraws = s.freeDraws := rfl

@[simp] theorem State.clearChecksum_secbuf : s.clearChecksum.secbuf = s.secbuf := rfl
@[simp] theorem State.clearChecksum_eng : s.clearChecksum.eng = s.eng := rfl
@[simp] theorem State.clearChecksum_pend : s.clearChecksum.pend = s.pend := rfl
@[simp] theorem State.clearChecksum_done : s.clearChecksum.done = s.done := rfl
@[simp] theorem State.clearChecksum_ovr : s.clearChecksum.ovr = s.ovr := rfl
@[simp] theorem State.clearChecksum_err : s.clearChecksum.err = s.err := rfl
@[simp] theorem State.clearChecksum_resgen : s.clearChecksum.resgen = s.resgen := rfl
@[simp] theorem State.clearChecksum_ie : s.clearChecksum.ie = s.ie := rfl
@[simp] theorem State.clearChecksum_ckSum : s.clearChecksum.ckSum = 0 := rfl
@[simp] theorem State.clearChecksum_ckCarry : s.clearChecksum.ckCarry = 0 := rfl
@[simp] theorem State.clearChecksum_ckBbuf : s.clearChecksum.ckBbuf = ⟨0, 0, 0⟩ := rfl
@[simp] theorem State.clearChecksum_ckBcnt : s.clearChecksum.ckBcnt = 0 := rfl
@[simp] theorem State.clearChecksum_ckDrop : s.clearChecksum.ckDrop = false := rfl
@[simp] theorem State.clearChecksum_scr : s.clearChecksum.scr = s.scr := rfl
@[simp] theorem State.clearChecksum_seed : s.clearChecksum.seed = s.seed := rfl
@[simp] theorem State.clearChecksum_ctag : s.clearChecksum.ctag = s.ctag := rfl
@[simp] theorem State.clearChecksum_attempt : s.clearChecksum.attempt = s.attempt := rfl
@[simp] theorem State.clearChecksum_rc4S : s.clearChecksum.rc4S = s.rc4S := rfl
@[simp] theorem State.clearChecksum_rc4I : s.clearChecksum.rc4I = s.rc4I := rfl
@[simp] theorem State.clearChecksum_rc4J : s.clearChecksum.rc4J = s.rc4J := rfl
@[simp] theorem State.clearChecksum_keyrom : s.clearChecksum.keyrom = s.keyrom := rfl
@[simp] theorem State.clearChecksum_response : s.clearChecksum.response = s.response := rfl
@[simp] theorem State.clearChecksum_inputs : s.clearChecksum.inputs = s.inputs := rfl
@[simp] theorem State.clearChecksum_freeDraws : s.clearChecksum.freeDraws = s.freeDraws := rfl

@[simp] theorem State.placeCW_secbuf (w : Word) : (s.placeCW w).secbuf = s.secbuf := rfl
@[simp] theorem State.placeCW_eng (w : Word) : (s.placeCW w).eng = .busy := rfl
@[simp] theorem State.placeCW_pend (w : Word) : (s.placeCW w).pend = w := rfl
@[simp] theorem State.placeCW_done (w : Word) : (s.placeCW w).done = false := rfl
@[simp] theorem State.placeCW_ovr (w : Word) : (s.placeCW w).ovr = s.ovr := rfl
@[simp] theorem State.placeCW_err (w : Word) : (s.placeCW w).err = .ok := rfl
@[simp] theorem State.placeCW_resgen (w : Word) : (s.placeCW w).resgen = none := rfl
@[simp] theorem State.placeCW_ie (w : Word) : (s.placeCW w).ie = s.ie := rfl
@[simp] theorem State.placeCW_ckSum (w : Word) : (s.placeCW w).ckSum = s.ckSum := rfl
@[simp] theorem State.placeCW_ckCarry (w : Word) : (s.placeCW w).ckCarry = s.ckCarry := rfl
@[simp] theorem State.placeCW_ckBbuf (w : Word) : (s.placeCW w).ckBbuf = s.ckBbuf := rfl
@[simp] theorem State.placeCW_ckBcnt (w : Word) : (s.placeCW w).ckBcnt = s.ckBcnt := rfl
@[simp] theorem State.placeCW_ckDrop (w : Word) : (s.placeCW w).ckDrop = s.ckDrop := rfl
@[simp] theorem State.placeCW_scr (w : Word) : (s.placeCW w).scr = s.scr := rfl
@[simp] theorem State.placeCW_seed (w : Word) : (s.placeCW w).seed = s.seed := rfl
@[simp] theorem State.placeCW_ctag (w : Word) : (s.placeCW w).ctag = s.ctag := rfl
@[simp] theorem State.placeCW_attempt (w : Word) : (s.placeCW w).attempt = s.attempt := rfl
@[simp] theorem State.placeCW_rc4S (w : Word) : (s.placeCW w).rc4S = s.rc4S := rfl
@[simp] theorem State.placeCW_rc4I (w : Word) : (s.placeCW w).rc4I = s.rc4I := rfl
@[simp] theorem State.placeCW_rc4J (w : Word) : (s.placeCW w).rc4J = s.rc4J := rfl
@[simp] theorem State.placeCW_keyrom (w : Word) : (s.placeCW w).keyrom = s.keyrom := rfl
@[simp] theorem State.placeCW_response (w : Word) : (s.placeCW w).response = s.response := rfl
@[simp] theorem State.placeCW_inputs (w : Word) : (s.placeCW w).inputs = .engine :: s.inputs := rfl
@[simp] theorem State.placeCW_freeDraws (w : Word) : (s.placeCW w).freeDraws = s.freeDraws := rfl

@[simp] theorem State.placeHT_secbuf (t : HT) : (s.placeHT t).secbuf = s.secbuf := rfl
@[simp] theorem State.placeHT_eng (t : HT) : (s.placeHT t).eng = s.eng := rfl
@[simp] theorem State.placeHT_pend (t : HT) : (s.placeHT t).pend = s.pend := rfl
@[simp] theorem State.placeHT_done (t : HT) : (s.placeHT t).done = s.done := rfl
@[simp] theorem State.placeHT_ovr (t : HT) : (s.placeHT t).ovr = s.ovr := rfl
@[simp] theorem State.placeHT_err (t : HT) : (s.placeHT t).err = s.err := rfl
@[simp] theorem State.placeHT_resgen (t : HT) : (s.placeHT t).resgen = s.resgen := rfl
@[simp] theorem State.placeHT_ie (t : HT) : (s.placeHT t).ie = s.ie := rfl
@[simp] theorem State.placeHT_ckSum (t : HT) : (s.placeHT t).ckSum = s.ckSum := rfl
@[simp] theorem State.placeHT_ckCarry (t : HT) : (s.placeHT t).ckCarry = s.ckCarry := rfl
@[simp] theorem State.placeHT_ckBbuf (t : HT) : (s.placeHT t).ckBbuf = s.ckBbuf := rfl
@[simp] theorem State.placeHT_ckBcnt (t : HT) : (s.placeHT t).ckBcnt = s.ckBcnt := rfl
@[simp] theorem State.placeHT_ckDrop (t : HT) : (s.placeHT t).ckDrop = s.ckDrop := rfl
@[simp] theorem State.placeHT_scr (t : HT) : (s.placeHT t).scr = s.scr := rfl
@[simp] theorem State.placeHT_seed (t : HT) : (s.placeHT t).seed = s.seed := rfl
@[simp] theorem State.placeHT_ctag (t : HT) : (s.placeHT t).ctag = s.ctag := rfl
@[simp] theorem State.placeHT_attempt (t : HT) : (s.placeHT t).attempt = s.attempt := rfl
@[simp] theorem State.placeHT_rc4S (t : HT) : (s.placeHT t).rc4S = s.rc4S := rfl
@[simp] theorem State.placeHT_rc4I (t : HT) : (s.placeHT t).rc4I = s.rc4I := rfl
@[simp] theorem State.placeHT_rc4J (t : HT) : (s.placeHT t).rc4J = s.rc4J := rfl
@[simp] theorem State.placeHT_keyrom (t : HT) : (s.placeHT t).keyrom = s.keyrom := rfl
@[simp] theorem State.placeHT_response (t : HT) : (s.placeHT t).response = s.response := rfl
@[simp] theorem State.placeHT_inputs (t : HT) : (s.placeHT t).inputs = .ht t :: s.inputs := rfl
@[simp] theorem State.placeHT_freeDraws (t : HT) : (s.placeHT t).freeDraws = s.freeDraws := rfl

@[simp] theorem State.subKsa_secbuf : s.subKsa.secbuf = s.secbuf := rfl
@[simp] theorem State.subKsa_eng : s.subKsa.eng = s.eng := rfl
@[simp] theorem State.subKsa_pend : s.subKsa.pend = s.pend := rfl
@[simp] theorem State.subKsa_done : s.subKsa.done = s.done := rfl
@[simp] theorem State.subKsa_ovr : s.subKsa.ovr = s.ovr := rfl
@[simp] theorem State.subKsa_err : s.subKsa.err = s.err := rfl
@[simp] theorem State.subKsa_resgen : s.subKsa.resgen = s.resgen := rfl
@[simp] theorem State.subKsa_ie : s.subKsa.ie = s.ie := rfl
@[simp] theorem State.subKsa_ckSum : s.subKsa.ckSum = s.ckSum := rfl
@[simp] theorem State.subKsa_ckCarry : s.subKsa.ckCarry = s.ckCarry := rfl
@[simp] theorem State.subKsa_ckBbuf : s.subKsa.ckBbuf = s.ckBbuf := rfl
@[simp] theorem State.subKsa_ckBcnt : s.subKsa.ckBcnt = s.ckBcnt := rfl
@[simp] theorem State.subKsa_ckDrop : s.subKsa.ckDrop = s.ckDrop := rfl
@[simp] theorem State.subKsa_scr : s.subKsa.scr = s.scr := rfl
@[simp] theorem State.subKsa_seed : s.subKsa.seed = s.seed := rfl
@[simp] theorem State.subKsa_ctag : s.subKsa.ctag = s.ctag := rfl
@[simp] theorem State.subKsa_attempt : s.subKsa.attempt = s.attempt := rfl
@[simp] theorem State.subKsa_rc4S : s.subKsa.rc4S = (rc4Ksa s.seed).s := rfl
@[simp] theorem State.subKsa_rc4I : s.subKsa.rc4I = (rc4Ksa s.seed).i := rfl
@[simp] theorem State.subKsa_rc4J : s.subKsa.rc4J = (rc4Ksa s.seed).j := rfl
@[simp] theorem State.subKsa_keyrom : s.subKsa.keyrom = s.keyrom := rfl
@[simp] theorem State.subKsa_response : s.subKsa.response = s.response := rfl
@[simp] theorem State.subKsa_inputs : s.subKsa.inputs = s.inputs := rfl
@[simp] theorem State.subKsa_freeDraws : s.subKsa.freeDraws = s.freeDraws := rfl

@[simp] theorem State.subStream_secbuf (n : Nat) : (s.subStream n).secbuf = s.secbuf := rfl
@[simp] theorem State.subStream_eng (n : Nat) : (s.subStream n).eng = s.eng := rfl
@[simp] theorem State.subStream_pend (n : Nat) : (s.subStream n).pend = s.pend := rfl
@[simp] theorem State.subStream_done (n : Nat) : (s.subStream n).done = s.done := rfl
@[simp] theorem State.subStream_ovr (n : Nat) : (s.subStream n).ovr = s.ovr := rfl
@[simp] theorem State.subStream_err (n : Nat) : (s.subStream n).err = s.err := rfl
@[simp] theorem State.subStream_resgen (n : Nat) : (s.subStream n).resgen = s.resgen := rfl
@[simp] theorem State.subStream_ie (n : Nat) : (s.subStream n).ie = s.ie := rfl
@[simp] theorem State.subStream_ckSum (n : Nat) : (s.subStream n).ckSum = s.ckSum := rfl
@[simp] theorem State.subStream_ckCarry (n : Nat) : (s.subStream n).ckCarry = s.ckCarry := rfl
@[simp] theorem State.subStream_ckBbuf (n : Nat) : (s.subStream n).ckBbuf = s.ckBbuf := rfl
@[simp] theorem State.subStream_ckBcnt (n : Nat) : (s.subStream n).ckBcnt = s.ckBcnt := rfl
@[simp] theorem State.subStream_ckDrop (n : Nat) : (s.subStream n).ckDrop = s.ckDrop := rfl
@[simp] theorem State.subStream_scr (n : Nat) :
    (s.subStream n).scr = s.scr.set (20 + n) (s.secbuf.read (20 + n) ^^^ (rc4Prga ⟨s.rc4S, s.rc4I, s.rc4J⟩).2) := rfl
@[simp] theorem State.subStream_seed (n : Nat) : (s.subStream n).seed = s.seed := rfl
@[simp] theorem State.subStream_ctag (n : Nat) : (s.subStream n).ctag = s.ctag := rfl
@[simp] theorem State.subStream_attempt (n : Nat) : (s.subStream n).attempt = s.attempt := rfl
@[simp] theorem State.subStream_rc4S (n : Nat) : (s.subStream n).rc4S = (rc4Prga ⟨s.rc4S, s.rc4I, s.rc4J⟩).1.s := rfl
@[simp] theorem State.subStream_rc4I (n : Nat) : (s.subStream n).rc4I = (rc4Prga ⟨s.rc4S, s.rc4I, s.rc4J⟩).1.i := rfl
@[simp] theorem State.subStream_rc4J (n : Nat) : (s.subStream n).rc4J = (rc4Prga ⟨s.rc4S, s.rc4I, s.rc4J⟩).1.j := rfl
@[simp] theorem State.subStream_keyrom (n : Nat) : (s.subStream n).keyrom = s.keyrom := rfl
@[simp] theorem State.subStream_response (n : Nat) : (s.subStream n).response = s.response := rfl
@[simp] theorem State.subStream_inputs (n : Nat) : (s.subStream n).inputs = s.inputs := rfl
@[simp] theorem State.subStream_freeDraws (n : Nat) : (s.subStream n).freeDraws = s.freeDraws := rfl

@[simp] theorem State.subPut_secbuf (tag : Bytes) : (s.subPut tag).secbuf = s.secbuf := rfl
@[simp] theorem State.subPut_eng (tag : Bytes) : (s.subPut tag).eng = s.eng := rfl
@[simp] theorem State.subPut_pend (tag : Bytes) : (s.subPut tag).pend = s.pend := rfl
@[simp] theorem State.subPut_done (tag : Bytes) : (s.subPut tag).done = s.done := rfl
@[simp] theorem State.subPut_ovr (tag : Bytes) : (s.subPut tag).ovr = s.ovr := rfl
@[simp] theorem State.subPut_err (tag : Bytes) : (s.subPut tag).err = s.err := rfl
@[simp] theorem State.subPut_resgen (tag : Bytes) : (s.subPut tag).resgen = s.resgen := rfl
@[simp] theorem State.subPut_ie (tag : Bytes) : (s.subPut tag).ie = s.ie := rfl
@[simp] theorem State.subPut_ckSum (tag : Bytes) : (s.subPut tag).ckSum = s.ckSum := rfl
@[simp] theorem State.subPut_ckCarry (tag : Bytes) : (s.subPut tag).ckCarry = s.ckCarry := rfl
@[simp] theorem State.subPut_ckBbuf (tag : Bytes) : (s.subPut tag).ckBbuf = s.ckBbuf := rfl
@[simp] theorem State.subPut_ckBcnt (tag : Bytes) : (s.subPut tag).ckBcnt = s.ckBcnt := rfl
@[simp] theorem State.subPut_ckDrop (tag : Bytes) : (s.subPut tag).ckDrop = s.ckDrop := rfl
@[simp] theorem State.subPut_scr (tag : Bytes) : (s.subPut tag).scr = tag ++ s.scr.drop 20 := rfl
@[simp] theorem State.subPut_seed (tag : Bytes) : (s.subPut tag).seed = s.seed := rfl
@[simp] theorem State.subPut_ctag (tag : Bytes) : (s.subPut tag).ctag = s.ctag := rfl
@[simp] theorem State.subPut_attempt (tag : Bytes) : (s.subPut tag).attempt = s.attempt := rfl
@[simp] theorem State.subPut_rc4S (tag : Bytes) : (s.subPut tag).rc4S = s.rc4S := rfl
@[simp] theorem State.subPut_rc4I (tag : Bytes) : (s.subPut tag).rc4I = s.rc4I := rfl
@[simp] theorem State.subPut_rc4J (tag : Bytes) : (s.subPut tag).rc4J = s.rc4J := rfl
@[simp] theorem State.subPut_keyrom (tag : Bytes) : (s.subPut tag).keyrom = s.keyrom := rfl
@[simp] theorem State.subPut_response (tag : Bytes) : (s.subPut tag).response = s.response := rfl
@[simp] theorem State.subPut_inputs (tag : Bytes) : (s.subPut tag).inputs = s.inputs := rfl
@[simp] theorem State.subPut_freeDraws (tag : Bytes) : (s.subPut tag).freeDraws = s.freeDraws := rfl

@[simp] theorem State.dropPending_secbuf : s.dropPending.secbuf = s.secbuf := by
  unfold State.dropPending; split <;> rfl
@[simp] theorem State.dropPending_eng : s.dropPending.eng = s.eng := by
  unfold State.dropPending; split <;> rfl
@[simp] theorem State.dropPending_pend : s.dropPending.pend = s.pend := by
  unfold State.dropPending; split <;> rfl
@[simp] theorem State.dropPending_done : s.dropPending.done = s.done := by
  unfold State.dropPending; split <;> rfl
@[simp] theorem State.dropPending_ovr : s.dropPending.ovr = s.ovr := by
  unfold State.dropPending; split <;> rfl
@[simp] theorem State.dropPending_err : s.dropPending.err = s.err := by
  unfold State.dropPending; split <;> rfl
@[simp] theorem State.dropPending_resgen : s.dropPending.resgen = s.resgen := by
  unfold State.dropPending; split <;> rfl
@[simp] theorem State.dropPending_ie : s.dropPending.ie = s.ie := by
  unfold State.dropPending; split <;> rfl
@[simp] theorem State.dropPending_scr : s.dropPending.scr = s.scr := by
  unfold State.dropPending; split <;> rfl
@[simp] theorem State.dropPending_seed : s.dropPending.seed = s.seed := by
  unfold State.dropPending; split <;> rfl
@[simp] theorem State.dropPending_ctag : s.dropPending.ctag = s.ctag := by
  unfold State.dropPending; split <;> rfl
@[simp] theorem State.dropPending_attempt : s.dropPending.attempt = s.attempt := by
  unfold State.dropPending; split <;> rfl
@[simp] theorem State.dropPending_rc4S : s.dropPending.rc4S = s.rc4S := by
  unfold State.dropPending; split <;> rfl
@[simp] theorem State.dropPending_rc4I : s.dropPending.rc4I = s.rc4I := by
  unfold State.dropPending; split <;> rfl
@[simp] theorem State.dropPending_rc4J : s.dropPending.rc4J = s.rc4J := by
  unfold State.dropPending; split <;> rfl
@[simp] theorem State.dropPending_keyrom : s.dropPending.keyrom = s.keyrom := by
  unfold State.dropPending; split <;> rfl
@[simp] theorem State.dropPending_response : s.dropPending.response = s.response := by
  unfold State.dropPending; split <;> rfl
@[simp] theorem State.dropPending_inputs : s.dropPending.inputs = s.inputs := by
  unfold State.dropPending; split <;> rfl
@[simp] theorem State.dropPending_freeDraws : s.dropPending.freeDraws = s.freeDraws := by
  unfold State.dropPending; split <;> rfl
@[simp] theorem State.dropPending_ckSum : s.dropPending.ckSum = s.ckSum := by
  unfold State.dropPending; split <;> rfl
@[simp] theorem State.dropPending_ckCarry : s.dropPending.ckCarry = s.ckCarry := by
  unfold State.dropPending; split <;> rfl

@[simp] theorem State.pushLane_secbuf (b : Byte) : (s.pushLane b).secbuf = s.secbuf := by
  unfold State.pushLane; split <;> rfl
@[simp] theorem State.pushLane_eng (b : Byte) : (s.pushLane b).eng = s.eng := by
  unfold State.pushLane; split <;> rfl
@[simp] theorem State.pushLane_pend (b : Byte) : (s.pushLane b).pend = s.pend := by
  unfold State.pushLane; split <;> rfl
@[simp] theorem State.pushLane_done (b : Byte) : (s.pushLane b).done = s.done := by
  unfold State.pushLane; split <;> rfl
@[simp] theorem State.pushLane_ovr (b : Byte) : (s.pushLane b).ovr = s.ovr := by
  unfold State.pushLane; split <;> rfl
@[simp] theorem State.pushLane_err (b : Byte) : (s.pushLane b).err = s.err := by
  unfold State.pushLane; split <;> rfl
@[simp] theorem State.pushLane_resgen (b : Byte) : (s.pushLane b).resgen = s.resgen := by
  unfold State.pushLane; split <;> rfl
@[simp] theorem State.pushLane_ie (b : Byte) : (s.pushLane b).ie = s.ie := by
  unfold State.pushLane; split <;> rfl
@[simp] theorem State.pushLane_scr (b : Byte) : (s.pushLane b).scr = s.scr := by
  unfold State.pushLane; split <;> rfl
@[simp] theorem State.pushLane_seed (b : Byte) : (s.pushLane b).seed = s.seed := by
  unfold State.pushLane; split <;> rfl
@[simp] theorem State.pushLane_ctag (b : Byte) : (s.pushLane b).ctag = s.ctag := by
  unfold State.pushLane; split <;> rfl
@[simp] theorem State.pushLane_attempt (b : Byte) : (s.pushLane b).attempt = s.attempt := by
  unfold State.pushLane; split <;> rfl
@[simp] theorem State.pushLane_rc4S (b : Byte) : (s.pushLane b).rc4S = s.rc4S := by
  unfold State.pushLane; split <;> rfl
@[simp] theorem State.pushLane_rc4I (b : Byte) : (s.pushLane b).rc4I = s.rc4I := by
  unfold State.pushLane; split <;> rfl
@[simp] theorem State.pushLane_rc4J (b : Byte) : (s.pushLane b).rc4J = s.rc4J := by
  unfold State.pushLane; split <;> rfl
@[simp] theorem State.pushLane_keyrom (b : Byte) : (s.pushLane b).keyrom = s.keyrom := by
  unfold State.pushLane; split <;> rfl
@[simp] theorem State.pushLane_response (b : Byte) : (s.pushLane b).response = s.response := by
  unfold State.pushLane; split <;> rfl
@[simp] theorem State.pushLane_inputs (b : Byte) : (s.pushLane b).inputs = s.inputs := by
  unfold State.pushLane; split <;> rfl
@[simp] theorem State.pushLane_freeDraws (b : Byte) : (s.pushLane b).freeDraws = s.freeDraws := by
  unfold State.pushLane; split <;> rfl
@[simp] theorem State.pushLane_ckDrop (b : Byte) : (s.pushLane b).ckDrop = s.ckDrop := by
  unfold State.pushLane; split <;> rfl

end Sys2Proof.Machine
end

