-- ==== Sys2Proof/Laws/Exec.lean ====
section
/-! SUPPORT. What the shared operations and one step can do, said once. -/

namespace Sys2Proof.Machine

/-- STATUS.BUSY is ENG (10_state.md R41). -/
theorem State.busy_iff (s : State) : s.busy = true ↔ s.eng = .busy := by
  cases h : s.eng <;> simp [State.busy, h]

theorem State.not_busy_iff (s : State) : s.busy = false ↔ s.eng = .idle := by
  cases h : s.eng <;> simp [State.busy, h]

/-- What completing a DECRYPT can do: a commit and OK, or VERIFICATION_FAILED with SECBUF as it was. -/
theorem State.completeDecrypt_cases (s : State) :
    (∃ g out, decryptFn (rootKey s.keyrom) s.secbuf.bytes = some (g, out) ∧
        s.completeDecrypt = { s with secbuf := s.secbuf.commit out }.complete .ok (some g)) ∨
      (decryptFn (rootKey s.keyrom) s.secbuf.bytes = none ∧
        s.completeDecrypt = s.complete .verificationFailed none) := by
  unfold State.completeDecrypt
  cases h : decryptFn (rootKey s.keyrom) s.secbuf.bytes with
  | none => exact .inr ⟨rfl, rfl⟩
  | some p => exact .inl ⟨p.1, p.2, rfl, rfl⟩

/-- What a command word's completion reports and leaves in SECBUF: the outcome code, RESGEN and the memory. -/
def cwOutcome (w : Word) (m : Memory) (k : KeyRom) : ErrCode × Option Gen × Memory :=
  match decodeCW w with
  | .decrypt =>
    match decryptFn (rootKey k) m.bytes with
    | some (g, out) => (.ok, some g, m.commit out)
    | none => (.verificationFailed, none, m)
  | .encrypt g => (.ok, some g, m.commit (encryptFn (rootKey k g) m.bytes))
  | .encryptBadgen _ => (.invalidGeneration, none, m)
  | _ => (.illegalCommand, none, m)

/-- Every completion is the record R140 of an outcome that depends on the word, SECBUF and KEYROM alone. -/
theorem exec_decodeCW (w : Word) (s : State) :
    exec (decodeCW w) s =
      .next ({ s with secbuf := (cwOutcome w s.secbuf s.keyrom).2.2 }.complete
        (cwOutcome w s.secbuf s.keyrom).1 (cwOutcome w s.secbuf s.keyrom).2.1) := by
  rcases decodeCW_cases w with h | ⟨g, h⟩ | ⟨c, h⟩ | h
  · rcases s.completeDecrypt_cases with ⟨g, out, hd, hc⟩ | ⟨hd, hc⟩ <;>
      simp only [h, exec, execDecrypt, cwOutcome, hd, hc]
  · simp only [h, exec, execEncrypt, cwOutcome]
  · simp only [h, exec, execEncryptBadgen, cwOutcome]
  · simp only [h, exec, execIllegal, cwOutcome]

/-- An outcome is OK with a generation and a commit, or an error with none and SECBUF as it was. -/
theorem cwOutcome_cases (w : Word) (m : Memory) (k : KeyRom) :
    (∃ g out, cwOutcome w m k = (.ok, some g, m.commit out)) ∨
      ∃ e, e ≠ .ok ∧ cwOutcome w m k = (e, none, m) := by
  rcases decodeCW_cases w with h | ⟨g, h⟩ | ⟨c, h⟩ | h <;> simp only [cwOutcome, h]
  · cases decryptFn (rootKey k) m.bytes with
    | none => exact .inr ⟨_, by simp, rfl⟩
    | some p => exact .inl ⟨_, _, rfl⟩
  · exact .inl ⟨_, _, rfl⟩
  · exact .inr ⟨_, by simp, rfl⟩
  · exact .inr ⟨_, by simp, rfl⟩

/-- What a host transaction can do. -/
theorem exec_decodeHT_cases (h : HT) (s : State) :
    (∃ r, exec (decodeHT h) s = .next { s with response := some r }) ∨
      (s.eng = .busy ∧ ((∃ i v, decodeHT h = .secbufWr i v) ∨ ∃ v, decodeHT h = .cmdWr v) ∧
        exec (decodeHT h) s = .next s.dropWrite) ∨
      (s.eng = .idle ∧ ∃ i v, decodeHT h = .secbufWr i v ∧
        exec (decodeHT h) s = .next { s with secbuf := s.secbuf.setSecw i.val v }.writeOkay) ∨
      (s.eng = .idle ∧ ∃ v, decodeHT h = .cmdWr v ∧ exec (decodeHT h) s = .next (s.accept v).writeOkay) ∨
      (∃ v, decodeHT h = .statusWr v ∧ exec (decodeHT h) s = .next (s.acknowledge v).writeOkay) ∨
      (∃ v, decodeHT h = .ctrlWr v ∧ exec (decodeHT h) s = .next { s with ie := wIe v }.writeOkay) ∨
      (∃ v, decodeHT h = .ckPushw v ∧ exec (decodeHT h) s = .next (s.dropPending.accumulate v).writeOkay) ∨
      (∃ v, decodeHT h = .ckPushb v ∧ exec (decodeHT h) s = .next (s.pushLane (pushByte v)).writeOkay) ∨
      (∃ v, decodeHT h = .ckClear v ∧
        exec (decodeHT h) s = .next (if wClear v then s.clearChecksum else s).writeOkay) ∨
      (∃ v, decodeHT h = .ckStatWr v ∧
        exec (decodeHT h) s = .next { s with ckDrop := w1c s.ckDrop (wClearDrop v) }.writeOkay) := by
  rcases decodeHT_cases h with e | ⟨_, e⟩ | ⟨_, e⟩
  · rw [e]; exact .inl ⟨_, rfl⟩
  · rw [e]
    cases regOfIndex (h.off.extractLsb' 2 6) <;> exact .inl ⟨_, rfl⟩
  · rw [e]
    cases regOfIndex (h.off.extractLsb' 2 6) with
    | secbufW i =>
      cases hs : s.eng with
      | idle =>
        refine .inr (.inr (.inl ⟨rfl, i, h.wdata, rfl, ?_⟩))
        simp only [writeOp, exec, execSecbufWr, (State.not_busy_iff s).mpr hs, hs, Bool.false_eq_true, if_false]
      | busy =>
        refine .inr (.inl ⟨rfl, .inl ⟨i, h.wdata, rfl⟩, ?_⟩)
        simp only [writeOp, exec, execSecbufWr, (State.busy_iff s).mpr hs, if_true]
    | cmd =>
      cases hs : s.eng with
      | idle =>
        refine .inr (.inr (.inr (.inl ⟨rfl, h.wdata, rfl, ?_⟩)))
        simp only [writeOp, exec, execCmdWr, (State.not_busy_iff s).mpr hs, Bool.false_eq_true, if_false]
      | busy =>
        refine .inr (.inl ⟨rfl, .inr ⟨h.wdata, rfl⟩, ?_⟩)
        simp only [writeOp, exec, execCmdWr, (State.busy_iff s).mpr hs, if_true]
    | status => exact .inr (.inr (.inr (.inr (.inl ⟨_, rfl, rfl⟩))))
    | ctrl => exact .inr (.inr (.inr (.inr (.inr (.inl ⟨_, rfl, rfl⟩)))))
    | ckPushw => exact .inr (.inr (.inr (.inr (.inr (.inr (.inl ⟨_, rfl, rfl⟩))))))
    | ckPushb => exact .inr (.inr (.inr (.inr (.inr (.inr (.inr (.inl ⟨_, rfl, rfl⟩)))))))
    | ckCtrl => exact .inr (.inr (.inr (.inr (.inr (.inr (.inr (.inr (.inl ⟨_, rfl, rfl⟩))))))))
    | ckStat => exact .inr (.inr (.inr (.inr (.inr (.inr (.inr (.inr (.inr ⟨_, rfl, rfl⟩))))))))
    | id => exact .inl ⟨_, rfl⟩
    | ckSum => exact .inl ⟨_, rfl⟩
    | ckCarry => exact .inl ⟨_, rfl⟩
    | ckResult => exact .inl ⟨_, rfl⟩
    | reserved o => exact .inl ⟨_, rfl⟩

/-- The ENGINE's turn while a command is in flight. -/
theorem engineTurn_busy {s : State} (h : s.eng = .busy) : engineTurn s = .run (decodeCW s.pend) s := by
  simp [engineTurn, State.busy, h]

/-- The ENGINE's turn while it is idle. -/
theorem engineTurn_idle {s : State} (h : s.eng = .idle) : engineTurn s = .becomes s := by
  simp [engineTurn, State.busy, h]

/-- A step whose next input is a host transaction. -/
theorem step_ht {s : State} {t : HT} {rest : List Event} (h : s.inputs = .ht t :: rest) :
    step s = exec (decodeHT t) { s with inputs := rest } := by
  simp only [step, nextTurn, h]

/-- A step whose next input is an RST event. -/
theorem step_rst {s : State} {rest : List Event} (h : s.inputs = .rst :: rest) :
    step s = .next { s with inputs := rest }.resetEvent := by
  simp only [step, nextTurn, h]

/-- A step that is the ENGINE's turn while a command is in flight. -/
theorem step_engine_busy {s : State} {rest : List Event} (h : s.inputs = .engine :: rest)
    (hb : s.eng = .busy) : step s = exec (decodeCW s.pend) { s with inputs := rest } := by
  simp only [step, nextTurn, h, engineTurn_busy (s := { s with inputs := rest }) hb]

/-- A step that is the ENGINE's turn while it is idle. -/
theorem step_engine_idle {s : State} {rest : List Event} (h : s.inputs = .engine :: rest)
    (hb : s.eng = .idle) : step s = .next { s with inputs := rest } := by
  simp only [step, nextTurn, h, engineTurn_idle (s := { s with inputs := rest }) hb]

/-- A step with no input left while a command is in flight. -/
theorem step_nil_busy {s : State} (h : s.inputs = []) (hb : s.eng = .busy) :
    step s = exec (decodeCW s.pend) s := by
  simp only [step, nextTurn, h, engineTurn_busy hb]

/-- A step with no input left while the ENGINE is idle. -/
theorem step_nil_idle {s : State} (h : s.inputs = []) (hb : s.eng = .idle) : step s = .next s := by
  simp only [step, nextTurn, h, engineTurn_idle hb]

/-- What one step can do: the host's next transaction, an RST event, the ENGINE's completion, or a turn that
passes because no command is in flight. -/
theorem step_cases (s : State) :
    (∃ t rest, s.inputs = .ht t :: rest ∧ step s = exec (decodeHT t) { s with inputs := rest }) ∨
      (∃ rest, s.inputs = .rst :: rest ∧ step s = .next { s with inputs := rest }.resetEvent) ∨
      (∃ rest, (s.inputs = .engine :: rest ∨ (s.inputs = [] ∧ rest = [])) ∧ s.eng = .busy ∧
        step s = exec (decodeCW s.pend) { s with inputs := rest }) ∨
      (∃ rest, (s.inputs = .engine :: rest ∨ (s.inputs = [] ∧ rest = [])) ∧ s.eng = .idle ∧
        step s = .next { s with inputs := rest }) := by
  cases hin : s.inputs with
  | nil =>
    have hs : { s with inputs := ([] : List Event) } = s := by rw [← hin]
    cases he : s.eng with
    | idle => exact .inr (.inr (.inr ⟨[], .inr ⟨rfl, rfl⟩, rfl, by rw [← he, hs, step_nil_idle hin he]⟩))
    | busy => exact .inr (.inr (.inl ⟨[], .inr ⟨rfl, rfl⟩, rfl, by rw [← he, hs, step_nil_busy hin he]⟩))
  | cons e rest =>
    cases e with
    | ht t => exact .inl ⟨t, rest, rfl, step_ht hin⟩
    | rst => exact .inr (.inl ⟨rest, rfl, step_rst hin⟩)
    | engine =>
      cases he : s.eng with
      | idle => exact .inr (.inr (.inr ⟨rest, .inl rfl, rfl, by rw [← he, step_engine_idle hin he]⟩))
      | busy => exact .inr (.inr (.inl ⟨rest, .inl rfl, rfl, by rw [← he, step_engine_busy hin he]⟩))

end Sys2Proof.Machine
end

