-- ==== Sys2Proof/Laws/PerInstr.lean ====
section
/-! SUPPORT. Every instruction's code has the fixed bits of its row of spec/opcode_table.json: the row's match
under the row's mask, written out here from the table and not from the encoder. -/

namespace Sys2Proof.Laws

/-- The match and mask of a row of the opcode table: 32 bits of a CW row, 43 of an HT row. -/
inductive Row where
  | cw (mtch mask : BitVec 32)
  | ht (mtch mask : BitVec 43)

/-- The row of an instruction, as spec/opcode_table.json has it. -/
def rowOf : Instr → Row
  | .decrypt => .cw 0x00000001 0xFFFFFFFF
  | .encrypt _ => .cw 0x00000002 0xFFFF00FF
  | .encryptBadgen _ => .cw 0x00000002 0xFFFF00FF
  | .illegal _ => .cw 0x00000000 0x00000000
  | .secbufWr _ _ => .ht 0x60000000000 0x7C300000000
  | .secbufRd _ => .ht 0x20000000000 0x7C300000000
  | .cmdWr _ => .ht 0x63000000000 0x7FF00000000
  | .cmdRd => .ht 0x23000000000 0x7FF00000000
  | .statusRd => .ht 0x23400000000 0x7FF00000000
  | .statusWr _ => .ht 0x63400000000 0x7FF00000000
  | .ctrlRd => .ht 0x23800000000 0x7FF00000000
  | .ctrlWr _ => .ht 0x63800000000 0x7FF00000000
  | .idRd => .ht 0x23C00000000 0x7FF00000000
  | .idWr _ => .ht 0x63C00000000 0x7FF00000000
  | .ckPushw _ => .ht 0x64000000000 0x7FF00000000
  | .ckPushb _ => .ht 0x64400000000 0x7FF00000000
  | .ckClear _ => .ht 0x64800000000 0x7FF00000000
  | .ckWoRd _ => .ht 0x24000000000 0x7F300000000
  | .ckStatRd => .ht 0x24C00000000 0x7FF00000000
  | .ckStatWr _ => .ht 0x64C00000000 0x7FF00000000
  | .ckSumRd => .ht 0x25000000000 0x7FF00000000
  | .ckCarryRd => .ht 0x25400000000 0x7FF00000000
  | .ckResultRd => .ht 0x25800000000 0x7FF00000000
  | .ckRoWr _ _ => .ht 0x65000000000 0x7F300000000
  | .rsvRd _ => .ht 0x20000000000 0x70300000000
  | .rsvWr _ _ => .ht 0x60000000000 0x70300000000
  | .buserr _ _ _ => .ht 0x00000000000 0x00000000000

/-- A code has a row's fixed bits. -/
def Row.fits : Row → Code → Bool
  | .cw mtch mask, .cw w => w &&& mask == mtch
  | .ht mtch mask, .ht t => t.toPattern &&& mask == mtch
  | _, _ => false

/-- The code of a well-formed instruction has the fixed bits of its row. -/
def TableRow.Statement (i : Instr) : Prop := i.wf = true → (rowOf i).fits i.code = true

/-- A mask over DIR, SIZE and OFF only. -/
theorem mask_high (hi m r : BitVec 11) (v : Word) (h : hi &&& m = r) :
    (hi ++ v) &&& (m ++ (0 : BitVec 32)) = r ++ (0 : BitVec 32) := by
  subst h
  ext i hi'
  simp only [BitVec.getElem_and, BitVec.getElem_append]
  split <;> simp

/-- A write of any value has the fixed bits that its DIR, SIZE and OFF have. -/
theorem fits_write (r : Reg) (v : Word) (m k : BitVec 11)
    (h : Dir.write.bit ++ (2 : BitVec 2) ++ (r.index ++ (0 : BitVec 2)) &&& m = k) :
    (Row.ht (k ++ (0 : BitVec 32)) (m ++ (0 : BitVec 32))).fits (.ht (writeHT r v)) = true :=
  beq_iff_eq.mpr (mask_high _ m k v h)

theorem TableRow.decrypt : TableRow.Statement .decrypt := fun _ => by decide

theorem TableRow.encrypt (g : Gen) : TableRow.Statement (.encrypt g) := fun _ => by cases g <;> decide

theorem TableRow.encryptBadgen (gen : BitVec 8) : TableRow.Statement (.encryptBadgen gen) := fun _ =>
  (by decide : ∀ gen : BitVec 8, (Row.cw 0x00000002 0xFFFF00FF).fits (.cw (cwWord gen 0x02)) = true) gen

theorem TableRow.illegal (w : Word) : TableRow.Statement (.illegal w) := fun _ => by
  simp [rowOf, Row.fits, Instr.code]

theorem TableRow.secbufWr (i : Fin 12) (v : Word) : TableRow.Statement (.secbufWr i v) := fun _ =>
  fits_write (.secbufW i) v 0x7C3 0x600
    ((by decide : ∀ i : Fin 12, Dir.write.bit ++ (2 : BitVec 2) ++ ((Reg.secbufW i).index ++ (0 : BitVec 2)) &&&
      0x7C3 = 0x600) i)

theorem TableRow.secbufRd (i : Fin 12) : TableRow.Statement (.secbufRd i) := fun _ =>
  (by decide : ∀ i : Fin 12, (Row.ht 0x20000000000 0x7C300000000).fits (.ht (readHT (.secbufW i))) = true) i

theorem TableRow.cmdWr (v : Word) : TableRow.Statement (.cmdWr v) := fun _ =>
  fits_write .cmd v 0x7FF 0x630 (by decide)

theorem TableRow.cmdRd : TableRow.Statement .cmdRd := fun _ => by decide

theorem TableRow.statusRd : TableRow.Statement .statusRd := fun _ => by decide

theorem TableRow.statusWr (v : Word) : TableRow.Statement (.statusWr v) := fun _ =>
  fits_write .status v 0x7FF 0x634 (by decide)

theorem TableRow.ctrlRd : TableRow.Statement .ctrlRd := fun _ => by decide

theorem TableRow.ctrlWr (v : Word) : TableRow.Statement (.ctrlWr v) := fun _ =>
  fits_write .ctrl v 0x7FF 0x638 (by decide)

theorem TableRow.idRd : TableRow.Statement .idRd := fun _ => by decide

theorem TableRow.idWr (v : Word) : TableRow.Statement (.idWr v) := fun _ =>
  fits_write .id v 0x7FF 0x63C (by decide)

theorem TableRow.ckPushw (v : Word) : TableRow.Statement (.ckPushw v) := fun _ =>
  fits_write .ckPushw v 0x7FF 0x640 (by decide)

theorem TableRow.ckPushb (v : Word) : TableRow.Statement (.ckPushb v) := fun _ =>
  fits_write .ckPushb v 0x7FF 0x644 (by decide)

theorem TableRow.ckClear (v : Word) : TableRow.Statement (.ckClear v) := fun _ =>
  fits_write .ckCtrl v 0x7FF 0x648 (by decide)

theorem TableRow.ckWoRd (k : Fin 3) : TableRow.Statement (.ckWoRd k) := fun _ =>
  (by decide : ∀ k : Fin 3, (Row.ht 0x24000000000 0x7F300000000).fits (.ht (readHT (woPort k))) = true) k

theorem TableRow.ckStatRd : TableRow.Statement .ckStatRd := fun _ => by decide

theorem TableRow.ckStatWr (v : Word) : TableRow.Statement (.ckStatWr v) := fun _ =>
  fits_write .ckStat v 0x7FF 0x64C (by decide)

theorem TableRow.ckSumRd : TableRow.Statement .ckSumRd := fun _ => by decide

theorem TableRow.ckCarryRd : TableRow.Statement .ckCarryRd := fun _ => by decide

theorem TableRow.ckResultRd : TableRow.Statement .ckResultRd := fun _ => by decide

theorem TableRow.ckRoWr (k : Fin 3) (v : Word) : TableRow.Statement (.ckRoWr k v) := fun _ =>
  fits_write (roReg k) v 0x7F3 0x650
    ((by decide : ∀ k : Fin 3, Dir.write.bit ++ (2 : BitVec 2) ++ ((roReg k).index ++ (0 : BitVec 2)) &&&
      0x7F3 = 0x650) k)

theorem TableRow.rsvRd (o : BitVec 6) : TableRow.Statement (.rsvRd o) := fun _ =>
  (by decide : ∀ o : BitVec 6, (Row.ht 0x20000000000 0x70300000000).fits (.ht (readHT (.reserved o))) = true) o

theorem TableRow.rsvWr (o : BitVec 6) (v : Word) : TableRow.Statement (.rsvWr o v) := fun _ =>
  fits_write (.reserved o) v 0x703 0x600
    ((by decide : ∀ o : BitVec 6, Dir.write.bit ++ (2 : BitVec 2) ++ (o ++ (0 : BitVec 2)) &&&
      0x703 = 0x600) o)

theorem TableRow.buserr (dir : Dir) (size : BitVec 2) (off : BitVec 8) :
    TableRow.Statement (.buserr dir size off) := fun _ => by
  simp [rowOf, Row.fits, Instr.code]

end Sys2Proof.Laws
end

