-- ==== Sys2Proof/Laws/Run.lean ====
section
/-! SUPPORT. Runs of several steps. -/

namespace Sys2Proof.Machine

@[simp] theorem runSteps_zero (s : State) : runSteps 0 s = .next s := rfl

/-- A run that begins with a step. -/
theorem runSteps_succ {s t : State} (h : step s = .next t) (k : Nat) : runSteps (k + 1) s = runSteps k t := by
  simp only [runSteps, h]

/-- A run in two parts. -/
theorem runSteps_add {j : Nat} : ∀ {k : Nat} {s t : State}, runSteps k s = .next t → runSteps (k + j) s = runSteps j t
  | 0, s, t, h => by
    injection h with h
    rw [Nat.zero_add, h]
  | k + 1, s, t, h => by
    cases hs : step s with
    | next u =>
      rw [runSteps_succ hs] at h
      rw [show k + 1 + j = k + j + 1 by omega, runSteps_succ hs]
      exact runSteps_add h
    | fault r => cases r
    | refused r => simp only [runSteps, hs] at h; cases h

/-- A run is the host's run of the same machine. -/
theorem runSteps_eq_run : ∀ (k : Nat) (s : State), runSteps k s = Host.Core.run Sys2Proof.core k s
  | 0, _ => rfl
  | k + 1, s => by
    cases hs : step s with
    | next t =>
      have hc : Sys2Proof.core.step s = .next t := hs
      simp only [runSteps, Host.Core.run, hs, hc]
      exact runSteps_eq_run k t
    | fault r => cases r
    | refused r =>
      have hc : Sys2Proof.core.step s = .refused r := hs
      simp only [runSteps, Host.Core.run, hs, hc]
      rfl

@[simp] theorem runInput_zero (input : InfiniteInput) (s : State) : runInput input 0 s = .next s := rfl

/-- A run on an infinite input that ends with one more turn. -/
theorem runInput_succ {input : InfiniteInput} {k : Nat} {s t : State} (h : runInput input k s = .next t) :
    runInput input (k + 1) s = stepOn (input k) t := by
  simp only [runInput, h]

/-- A run that ends with one more step. -/
theorem runSteps_succ_last {k : Nat} {s t : State} (h : runSteps k s = .next t) : runSteps (k + 1) s = step t := by
  rw [runSteps_add h]
  cases hs : step t with
  | next u => exact (runSteps_succ hs 0).trans rfl
  | fault r => cases r
  | refused r => simp only [runSteps, hs]

/-- What a completion leaves outside the hidden state (41_section_cipher.md R140). -/
theorem State.forgetHidden_complete (s : State) (e : ErrCode) (g : Option Gen) :
    (s.complete e g).forgetHidden =
      ({ s with eng := .idle, pend := 0, done := true, err := e, resgen := g } : State).forgetHidden := rfl

end Sys2Proof.Machine
end

