-- ==== Sys2Proof/Tests/Slice0.lean ====
section
/-! SUPPORT. The model's own tests: the WellFormed smoke tests, one decoding for each row of the opcode table from
a word written out from the spec's encoding, one-step tests with the values of 95_test_vectors.md, and for each
statement with hypotheses a state that meets them. -/

namespace Sys2Proof.Tests

open Sys2Proof.Machine

/-! ### Helpers -/

/-- A byte string from its hexadecimal spelling, as 95_test_vectors.md lists them: n bytes in address order. -/
def hex (n h : Nat) : Bytes := (bytesOfNat n h).reverse

/-- A test key of 95_test_vectors.md. -/
def key1 : Vector Byte 16 := ⟨(hex 16 0x000102030405060708090a0b0c0d0e0f).toArray, by decide⟩

/-- A test key of 95_test_vectors.md. -/
def key3 : Vector Byte 16 := ⟨(hex 16 0x202122232425262728292a2b2c2d2e2f).toArray, by decide⟩

/-- The idle test state: reset with test keys, K1 = K2 as in V-P1, and a given SECBUF and input. -/
def idleWith (sec : Bytes) (inputs : List Event) : State :=
  { State.reset with keyrom := ⟨key1, key1, key3⟩, secbuf := Memory.commit [] sec, inputs := inputs }

/-- The idle test state with SECBUF zero and no input. -/
def idle : State := idleWith [] []

/-- The test state with a command in flight. -/
def busyWith (w : Word) (inputs : List Event) : State := { idleWith [] inputs with eng := .busy, pend := w }

/-- The HT `wr OFF, VALUE` (30_encoding.md R91). -/
def wr (off : BitVec 8) (v : Word) : HT := ⟨.write, 2, off, v⟩

/-- The HT `rd OFF` (R91). -/
def rd (off : BitVec 8) : HT := ⟨.read, 2, off, 0⟩

/-- One step of the machine on one HT gives a next state with a property. -/
def after (s : State) (h : HT) (p : State → Bool) : Bool :=
  match step { s with inputs := [.ht h] } with
  | .next t => p t
  | _ => false

/-- An outcome is a next state with a property. -/
def nextHas (o : Host.Outcome State Fault Refusal) (p : State → Bool) : Bool :=
  match o with
  | .next t => p t
  | _ => false

/-! ### WellFormed: each check refuses an ill-formed term -/

theorem test_wf_encryptBadgen : (Instr.encryptBadgen 1).wf = false ∧ (Instr.encryptBadgen 3).wf = false ∧
    (Instr.encryptBadgen 4).wf = true ∧ (Instr.encryptBadgen 0).wf = true := by decide
theorem test_wf_illegal : (Instr.illegal 0x00000001).wf = false ∧ (Instr.illegal 0x0000FF02).wf = false ∧
    (Instr.illegal 0x00000101).wf = true ∧ (Instr.illegal 0x00010001).wf = true ∧ (Instr.illegal 3).wf = true := by
  decide
theorem test_wf_rsvRd : (Instr.rsvRd 0x16).wf = false ∧ (Instr.rsvRd 0x17).wf = true := by decide
theorem test_wf_rsvWr : (Instr.rsvWr 0x16 5).wf = false ∧ (Instr.rsvWr 0x3F 5).wf = true := by decide
theorem test_wf_buserr : (Instr.buserr .read 2 0x34).wf = false ∧ (Instr.buserr .read 1 0x34).wf = true ∧
    (Instr.buserr .write 2 0x31).wf = true := by decide

/-! ### Decoding: words written out from 30_encoding.md R81, R83, R93 and 95_test_vectors.md section 5 -/

theorem test_decode_decrypt : decodeTableWord 32 0x00000001 = some .decrypt := by decide
theorem test_decode_encrypt : decodeTableWord 32 0x00000102 = some (.encrypt .gen1) ∧
    decodeTableWord 32 0x00000202 = some (.encrypt .gen2) ∧
    decodeTableWord 32 0x00000302 = some (.encrypt .gen3) := by decide
theorem test_decode_encryptBadgen : decodeTableWord 32 0x00000002 = some (.encryptBadgen 0) ∧
    decodeTableWord 32 0x0000FF02 = some (.encryptBadgen 0xFF) := by decide
theorem test_decode_illegal : decodeTableWord 32 0x00000101 = some (.illegal 0x101) ∧
    decodeTableWord 32 0x00010402 = some (.illegal 0x10402) ∧ decodeTableWord 32 3 = some (.illegal 3) := by decide
theorem test_decode_secbufWr : decodeTableWord 43 0x61444332211 = some (.secbufWr 5 0x44332211) := by decide
theorem test_decode_secbufRd : decodeTableWord 43 0x22C00000000 = some (.secbufRd 11) := by decide
theorem test_decode_cmdWr : decodeTableWord 43 0x63000000202 = some (.cmdWr 0x202) := by decide
theorem test_decode_cmdRd : decodeTableWord 43 0x23000000000 = some .cmdRd := by decide
theorem test_decode_statusRd : decodeTableWord 43 0x23400000000 = some .statusRd := by decide
theorem test_decode_statusWr : decodeTableWord 43 0x63400000006 = some (.statusWr 6) := by decide
theorem test_decode_ctrlRd : decodeTableWord 43 0x23800000000 = some .ctrlRd := by decide
theorem test_decode_ctrlWr : decodeTableWord 43 0x638FFFFFFFF = some (.ctrlWr 0xFFFFFFFF) := by decide
theorem test_decode_idRd : decodeTableWord 43 0x23C00000000 = some .idRd := by decide
theorem test_decode_idWr : decodeTableWord 43 0x63C00000000 = some (.idWr 0) := by decide
theorem test_decode_ckPushw : decodeTableWord 43 0x640FFFFFFFF = some (.ckPushw 0xFFFFFFFF) := by decide
theorem test_decode_ckPushb : decodeTableWord 43 0x64400000007 = some (.ckPushb 7) := by decide
theorem test_decode_ckClear : decodeTableWord 43 0x64800000001 = some (.ckClear 1) := by decide
theorem test_decode_ckWoRd : decodeTableWord 43 0x24000000000 = some (.ckWoRd 0) ∧
    decodeTableWord 43 0x24400000000 = some (.ckWoRd 1) ∧ decodeTableWord 43 0x24800000000 = some (.ckWoRd 2) := by
  decide
theorem test_decode_ckStatRd : decodeTableWord 43 0x24C00000000 = some .ckStatRd := by decide
theorem test_decode_ckStatWr : decodeTableWord 43 0x64C00000100 = some (.ckStatWr 0x100) := by decide
theorem test_decode_ckSumRd : decodeTableWord 43 0x25000000000 = some .ckSumRd := by decide
theorem test_decode_ckCarryRd : decodeTableWord 43 0x25400000000 = some .ckCarryRd := by decide
theorem test_decode_ckResultRd : decodeTableWord 43 0x25800000000 = some .ckResultRd := by decide
theorem test_decode_ckRoWr : decodeTableWord 43 0x65000000005 = some (.ckRoWr 0 5) ∧
    decodeTableWord 43 0x65400000005 = some (.ckRoWr 1 5) ∧
    decodeTableWord 43 0x65800000000 = some (.ckRoWr 2 0) := by decide
theorem test_decode_rsvRd : decodeTableWord 43 0x28000000000 = some (.rsvRd 0x20) ∧
    decodeTableWord 43 0x25C00000000 = some (.rsvRd 0x17) := by decide
theorem test_decode_rsvWr : decodeTableWord 43 0x6FC12345678 = some (.rsvWr 0x3F 0x12345678) := by decide
theorem test_decode_buserr : decodeTableWord 43 0x13400000000 = some (.buserr .read 1 0x34) ∧
    decodeTableWord 43 0x63100000001 = some (.buserr .write 2 0x31) ∧
    decodeTableWord 43 0x74000000001 = some (.buserr .write 3 0x40) := by decide
/-- What is no 32-bit CW and no 43-bit HT pattern is rejected by name (log entry 9). -/
theorem test_decode_rejects : decodeBytes [0, 0] = .error (.badLength 2) ∧
    decodeBytes [0, 0, 0, 0, 0, 8] = .error .aboveBit42 := by decide
theorem test_encode : encode (.encrypt .gen3) = [0x02, 0x03, 0, 0] ∧
    encode (.secbufWr 5 0x44332211) = [0x11, 0x22, 0x33, 0x44, 0x14, 0x06] := by decide
/-- The words the host places are run by the next step. -/
theorem test_withFetchWord :
    nextHas (step (idle.withFetchWord 32 0x00000402)) (fun t => t.err == .invalidGeneration && t.done) = true ∧
      nextHas (step (idle.withFetchWord 43 0x64000000010)) (fun t => t.ckSum == 0x10) = true := by decide +kernel

/-! ### One step of each host operation, from 95_test_vectors.md -/

theorem test_secbuf_V_H7 : after idle (wr 0x14 0x44332211) (fun t =>
    (t.secbuf.read 20, t.secbuf.read 21, t.secbuf.read 22, t.secbuf.read 23, t.secbuf.read 24) ==
      (0x11, 0x22, 0x33, 0x44, 0)) = true := by decide +kernel
theorem test_secbuf_read : after (idleWith [1, 2, 3, 4] []) (rd 0x00)
    (fun t => t.response == some (.rdata 0x04030201)) = true := by decide +kernel
/-- P4, lines 3, 4 and 6: dropped writes. -/
theorem test_busy_drop : after (busyWith 0x402 []) (wr 0x30 1) (fun t => t.pend == 0x402 && statusWord t == 5) = true ∧
    after (busyWith 0x402 []) (wr 0x00 0x12345678) (fun t => t.secbuf == [] && statusWord t == 5) = true := by
  decide +kernel
theorem test_cmd_accept : after { idle with done := true, err := .illegalCommand, ovr := true } (wr 0x30 1)
    (fun t => t.pend == 1 && statusWord t == 5) = true := by decide +kernel
theorem test_status_read : after { idle with done := true, resgen := some .gen3 } (rd 0x34)
    (fun t => t.response == some (.rdata 0x00000302)) = true := by decide +kernel
/-- P5, line 5. -/
theorem test_status_write : after { idle with done := true, ovr := true, ie := true, err := .verificationFailed }
    (wr 0x34 2) (fun t => statusWord t == 0x14 && t.irq == false) = true := by decide +kernel
theorem test_ctrl_V_H5 : after idle (wr 0x38 0xFFFFFFFF) (fun t => ctrlWord t == 1) = true := by decide +kernel
/-- V-H16. -/
theorem test_ctrl_V_H16 : after { idle with done := true } (wr 0x38 1) (fun t => t.irq) = true := by decide +kernel
theorem test_id_V_H1 : after idle (rd 0x3C) (fun t => t.response == some (.rdata 0x45530100)) = true := by
  decide +kernel
theorem test_buserr_V_H13 : after idle (wr 0x31 1)
    (fun t => t.response == some (.error 0x31) && t.eng == .idle && !t.ovr) = true := by decide +kernel

/-! ### The checksum unit, from 95_test_vectors.md section 3 -/

/-- CK_SUM, CK_CARRY and CK_RESULT after words from a clear unit. -/
def sums (ws : List Word) : Word × Word × Word :=
  let sc := ws.foldl (fun sc w => ckAcc sc.1 sc.2 w) (0, 0)
  (sc.1, sc.2, ckFold sc.1 sc.2)

theorem test_ck_V_C1_to_C5 : sums [] = (0, 0, 0) ∧ sums [0xFFFFFFFF, 2] = (1, 1, 2) ∧
    sums [0xFFFFFFFF] = (0xFFFFFFFF, 0, 0xFFFFFFFF) ∧
    sums [0xFFFFFFFF, 0xFFFFFFFF, 0xFFFFFFFF] = (0xFFFFFFFD, 2, 0xFFFFFFFF) ∧
    sums [0x80000000, 0x80000000] = (0, 1, 1) := by decide
theorem test_ck_V_C6_to_C13 : sums [0xFFFFFFFF, 0xFFFFFFFF, 1] = (0xFFFFFFFF, 1, 1) ∧
    sums [0x12345678, 0x9ABCDEF0, 0x0FEDCBA9] = (0xBCDF0111, 0, 0xBCDF0111) ∧
    sums [0xFFFFFFFF, 0xFFFFFFFF, 0xFFFFFFFF, 3] = (0, 3, 3) ∧
    sums [0xFFFFFFFE, 1] = (0xFFFFFFFF, 0, 0xFFFFFFFF) ∧ sums [0xFFFFFFFF, 1] = (0, 1, 1) := by decide
/-- L1-3. -/
theorem test_checksum_L1_3 : checksum [1, 2, 3, 4, 5, 6, 7] 7 = 0x04030201 := by decide
/-- V-C15: the fourth byte. -/
theorem test_ckPushb_fourth : after { idle with ckBbuf := ⟨1, 2, 3⟩, ckBcnt := 3 } (wr 0x44 0xFFFFFF04)
    (fun t => t.ckSum == 0x04030201 && t.ckBcnt == 0 && !t.ckDrop) = true := by decide +kernel
/-- V-C17. -/
theorem test_ckPushw_drop : after { idle with ckSum := 0x04030201, ckBbuf := ⟨5, 6, 7⟩, ckBcnt := 3 } (wr 0x40 0x10)
    (fun t => t.ckSum == 0x04030211 && ckStatWord t == 0x100) = true := by decide +kernel
/-- V-C21 and V-C23. -/
theorem test_ckClear : after { idle with ckSum := 5, ckBbuf := ⟨1, 0, 0⟩, ckBcnt := 1 } (wr 0x48 1)
    (fun t => ckStatWord t == 0 && t.ckSum == 0) = true ∧
    after { idle with ckSum := 5 } (wr 0x48 0) (fun t => t.ckSum == 5) = true := by decide +kernel
/-- V-C18. -/
theorem test_ckStatWr : after { idle with ckDrop := true, ckSum := 0x04030211, ckBcnt := 2 } (wr 0x4C 0x100)
    (fun t => ckStatWord t == 2 && t.ckSum == 0x04030211) = true := by decide +kernel

/-! ### The cipher, from 95_test_vectors.md sections 2 and 4: encryption by generation 3 (V-E3) and the attempts 1
and 3 of its decryption trace (4.4), stage by stage so that the kernel evaluates each hash and keystream once -/

def payloadPT : Bytes := hex 28 0x112233445566778800112233445566778899aabbccddeeff01000000
def sectionPT : Bytes := hex 20 0 ++ payloadPT
def tagE3 : Bytes := hex 20 0xaf8f268d6c35d804cf74e5db422d12da73653c0e
def cipherE3 : Bytes := hex 28 0x097826504b60ef11fff7f9a3959471d07137e4e185a157fcaf7ed35c
def sectionE3 : Bytes := tagE3 ++ cipherE3
def seedE3 : Bytes := hex 20 0x25ed23bb6699ab8b4ccaa59291eb9ca23feefc3c
def seed1 : Bytes := hex 20 0x41a5dd8b99f30a4ee38ff60d0f9a9136a281ab01
def cand1 : Bytes := hex 28 0xd0e9934c88ddd57a3c08dc9209db6c92f086577a0cd55dd8876e62de
def ctag1 : Bytes := hex 20 0x324c9aa4ffccb558d415d8fc06ce7d4f3fd79623

theorem test_sha1_abc : sha1 [0x61, 0x62, 0x63] = hex 20 0xa9993e364706816aba3e25717850c26c9cd0d89d := by
  decide +kernel
theorem test_tag_V_E3 : hmac20 key3.toList payloadPT = tagE3 := by decide +kernel
theorem test_seed_V_E3 : hmac20 key3.toList tagE3 = seedE3 := by decide +kernel
theorem test_keystream_V_E3 : rc4Stream 28 (rc4Ksa seedE3) =
    hex 28 0x185a15141e069899ffe6db90d1c117a7f9ae4e5a497cb903ae7ed35c := by decide +kernel
theorem test_seed_attempt1 : hmac20 key1.toList tagE3 = seed1 := by decide +kernel
theorem test_cand_attempt1 : rc4 seed1 cipherE3 = cand1 := by decide +kernel
theorem test_ctag_attempt1 : hmac20 key1.toList cand1 = ctag1 := by decide +kernel

theorem test_rc4_encrypt : rc4 seedE3 payloadPT = cipherE3 := by
  rw [rc4, show payloadPT.length = 28 from by decide, test_keystream_V_E3]; decide
theorem test_rc4_decrypt : rc4 seedE3 cipherE3 = payloadPT := by
  rw [rc4, show cipherE3.length = 28 from by decide, test_keystream_V_E3]; decide
theorem test_encryptFn_V_E3 : encryptFn key3.toList sectionPT = sectionE3 := by
  simp only [encryptFn, show payloadOf sectionPT = payloadPT from by decide, test_tag_V_E3, test_seed_V_E3,
    test_rc4_encrypt, sectionE3]
/-- Attempt 3 of 4.4 verifies. -/
theorem test_attempt3 : attempt key3.toList sectionE3 = (true, payloadPT) := by
  simp only [attempt, show tagOf sectionE3 = tagE3 from by decide, show payloadOf sectionE3 = cipherE3 from by decide,
    test_seed_V_E3, test_rc4_decrypt, test_tag_V_E3, BEq.rfl]
/-- Attempt 1 of 4.4 does not. -/
theorem test_attempt1 : attempt key1.toList sectionE3 = (false, cand1) := by
  simp only [attempt, show tagOf sectionE3 = tagE3 from by decide, show payloadOf sectionE3 = cipherE3 from by decide,
    test_seed_attempt1, test_cand_attempt1, test_ctag_attempt1]
  decide
/-- What the completion of an ENCRYPT is, from the value of its function. -/
theorem encrypt_result {s : State} {g : Gen} {out : Bytes}
    (h : encryptFn (rootKey s.keyrom g) s.secbuf.bytes = out) :
    ∃ t, exec (.encrypt g) s = .next t ∧ t.secbuf = s.secbuf.commit out ∧ t.err = .ok ∧ t.resgen = some g :=
  ⟨_, rfl, by rw [← h]; rfl, rfl, rfl⟩
theorem bytes_PT : (Memory.commit [] sectionPT).bytes = sectionPT := by decide +kernel
theorem bytes_E3 : (Memory.commit [] sectionE3).bytes = sectionE3 := by decide +kernel
theorem bytes_E3_over_PT : (Memory.commit (Memory.commit [] sectionPT) sectionE3).bytes = sectionE3 := by
  decide +kernel
/-- ENCRYPT 3 of V-PT gives V-E3. -/
theorem test_encrypt_V_E3 : ∃ t, exec (.encrypt .gen3) (idleWith sectionPT []) = .next t ∧
    t.secbuf.bytes = sectionE3 ∧ t.err = .ok ∧ t.resgen = some .gen3 := by
  obtain ⟨t, ht, hs, he⟩ := encrypt_result (s := idleWith sectionPT []) (g := .gen3) (out := sectionE3)
    (by simp only [idleWith, rootKey, bytes_PT, test_encryptFn_V_E3])
  exact ⟨t, ht, by rw [hs]; exact bytes_E3_over_PT, he⟩
/-- V-R3: attempts 1 and 2 (here with equal keys) fail, attempt 3 verifies, and the payload is V-PT's. -/
theorem test_decrypt_V_R3 : ∃ t, exec .decrypt (idleWith sectionE3 []) = .next t ∧
    t.secbuf.bytes = tagE3 ++ payloadPT ∧ t.err = .ok ∧ t.resgen = some .gen3 := by
  have h : decryptFn (rootKey idle.keyrom) (idleWith sectionE3 []).secbuf.bytes = some (.gen3, tagE3 ++ payloadPT) := by
    simp only [decryptFn, priorityOrder, trial, idle, idleWith, rootKey, bytes_E3, test_attempt1, test_attempt3,
      show tagOf sectionE3 = tagE3 from by decide, Bool.false_eq_true, if_false, if_true]
  rcases (idleWith sectionE3 []).completeDecrypt_cases with ⟨g, out, hd, hc⟩ | ⟨hd, _⟩
  · obtain ⟨rfl, rfl⟩ : g = .gen3 ∧ out = tagE3 ++ payloadPT := by
      simpa [eq_comm] using hd.symm.trans h
    refine ⟨_, rfl, ?_⟩
    rw [hc]
    refine ⟨?_, rfl, rfl⟩
    simp only [State.complete_secbuf, idleWith]
    decide +kernel
  · exact absurd (hd.symm.trans h) (by simp)
/-- A section that no generation verifies: VERIFICATION_FAILED, SECBUF unchanged (R145). -/
theorem test_decrypt_fails : ∃ t, exec .decrypt { idleWith sectionE3 [] with keyrom := ⟨key1, key1, key1⟩ } = .next t ∧
    t.secbuf = (idleWith sectionE3 []).secbuf ∧ t.err = .verificationFailed ∧ t.resgen = none := by
  have h : decryptFn (rootKey ⟨key1, key1, key1⟩) (idleWith sectionE3 []).secbuf.bytes = none := by
    simp only [decryptFn, priorityOrder, trial, idleWith, rootKey, bytes_E3, test_attempt1, Bool.false_eq_true,
      if_false]
  rcases State.completeDecrypt_cases { idleWith sectionE3 [] with keyrom := ⟨key1, key1, key1⟩ } with
    ⟨g, out, hd, _⟩ | ⟨_, hc⟩
  · exact absurd (hd.symm.trans h) (by simp)
  · exact ⟨_, rfl, by rw [hc]; exact ⟨rfl, rfl, rfl⟩⟩

/-! ### Witnesses: for each statement with hypotheses, a state and operands that meet them together -/

theorem witness_DecodeOfEncodeIsIdentity : (Instr.encryptBadgen 0xFF).wf = true ∧ (Instr.rsvRd 0x17).wf = true ∧
    (Instr.illegal 0xFFFFFFFF).wf = true ∧ (Instr.buserr .write 3 0xFF).wf = true := by decide
/-- One state for each clause. -/
theorem witness_StepRunsDecodedInstruction :
    ((idleWith [] [.ht (rd 0x3C)]).inputs = .ht (rd 0x3C) :: [] ∧ decodeHT (rd 0x3C) = .idRd) ∧
      ((busyWith 1 [.engine]).inputs = .engine :: [] ∧ (busyWith 1 [.engine]).eng = .busy ∧ decodeCW 1 = .decrypt) ∧
      ((busyWith 0 []).inputs = [] ∧ (busyWith 0 []).eng = .busy ∧ decodeCW 0 = .illegal 0) ∧
      ((idleWith [] [.engine, .rst]).inputs = .engine :: [.rst] ∧ (idleWith [] [.engine, .rst]).eng = .idle) ∧
      (idle.inputs = [] ∧ idle.eng = .idle) := by decide
theorem witness_StepKeepsInvariant : State.reset.Inv ∧ step State.reset = .next State.reset := by
  refine ⟨?_, rfl⟩
  constructor <;> simp [State.reset, Memory.wf, Memory.wfFrom]
theorem witness_ResetEventAbortsAndRestores : (busyWith 0x102 [.rst]).inputs = .rst :: [] ∧
    (busyWith 0x102 [.rst]).eng = .busy := by decide
/-- At i = 0 and i = 11. -/
theorem witness_SecbufWriteStoresFourBytes : idle.secbuf.wf = true ∧ idle.eng = .idle ∧
    nextHas (exec (.secbufWr 0 0x44332211) idle) (fun t => t.secbuf.read 0 == 0x11 && t.secbuf.read 3 == 0x44) = true ∧
    nextHas (exec (.secbufWr 11 0x44332211) idle)
      (fun t => t.secbuf.read 44 == 0x11 && t.secbuf.read 47 == 0x44 && t.secbuf.read 48 == 0) = true := by
  decide +kernel
theorem witness_SecbufWordReadsBack : (idleWith sectionPT []).secbuf.wf = true ∧
    (idleWith sectionPT []).eng = .idle := by decide +kernel
theorem witness_BusyWritesAreDropped : (busyWith 0x102 []).eng = .busy := by decide
/-- A step that changes SECBUF, by each of the three ways. -/
theorem witness_SecbufWritersAreOnlyThese :
    after idle (wr 0x2C 1) (fun t => t.secbuf != idle.secbuf) = true ∧
      (∃ t, step { idleWith sectionPT [.engine] with eng := .busy, pend := 0x302 } = .next t ∧
        t.secbuf ≠ (idleWith sectionPT []).secbuf) ∧
      nextHas (step (idleWith [1] [.rst])) (fun t => t.secbuf != (idleWith [1] []).secbuf) = true := by
  refine ⟨by decide +kernel, ?_, by decide +kernel⟩
  obtain ⟨t, ht, hs, -⟩ := encrypt_result (s := { idleWith sectionPT [] with eng := .busy, pend := 0x302 })
    (g := .gen3) (out := sectionE3) (by simp only [idleWith, rootKey, bytes_PT, test_encryptFn_V_E3])
  refine ⟨t, ht, fun h => ?_⟩
  rw [hs] at h
  have := congrArg Memory.bytes h
  simp only [idleWith, bytes_E3_over_PT, bytes_PT] at this
  exact absurd this (by decide)
theorem witness_CommandAcceptance : idle.eng = .idle := by decide
/-- At both ends of the reserved range. -/
theorem witness_ReservedOffsets : 0x5C ≤ 4 * (0x17 : BitVec 6).toNat ∧ 0x5C ≤ 4 * (0x3F : BitVec 6).toNat ∧
    ¬0x5C ≤ 4 * (0x16 : BitVec 6).toNat := by decide
theorem witness_MalformedAccess : ((⟨.read, 1, 0x34, 0⟩ : HT).size.toNat ≠ 2) ∧
    ((⟨.write, 2, 0xFF, 0⟩ : HT).off.toNat % 4 ≠ 0) := by decide
/-- One state for each value of CK_BCNT. -/
theorem witness_BytePushAssemblesWords : idle.ckBcnt = 0 ∧ { idle with ckBcnt := 1 }.ckBcnt = 1 ∧
    { idle with ckBcnt := 2 }.ckBcnt = 2 ∧ { idle with ckBcnt := 3 }.ckBcnt = 3 := by decide
theorem witness_ClearZeroesChecksumUnit : (0xFFFFFFFF : Word).getLsbD 0 = true ∧
    (0xFFFFFFFE : Word).getLsbD 0 = false := by decide
theorem witness_TrailingBytesAreIgnored : (3 : Nat) < 4 ∧
    ([1, 2, 3, 4, 5] : Bytes).take (4 * 1) = ([1, 2, 3, 4, 9] : Bytes).take (4 * 1) := by decide
theorem witness_BytePushesComputeChecksum : 3 ≤ ([1, 2, 3] : Bytes).length ∧
    (idleWith [] [byteEvent 1, byteEvent 2, byteEvent 3, .rst]).inputs =
      (([1, 2, 3] : Bytes).take 3).map byteEvent ++ [.rst] ∧
    idle.ckSum = 0 ∧ idle.ckCarry = 0 ∧ idle.ckBcnt = 0 := by decide
theorem witness_WordPushesComputeChecksum : 7 ≤ ([1, 2, 3, 4, 5, 6, 7] : Bytes).length ∧
    (idleWith [] [.ht (wr 0x40 0x04030201)]).inputs =
      (List.range (7 / 4)).map (wordEvent [1, 2, 3, 4, 5, 6, 7]) ++ [] := by decide
theorem witness_ChecksumUnitIsIndependent : checksumReg .ckResult = true ∧ checksumReg (.reserved 0x17) = false := by
  decide
theorem witness_StreamCipherIsInvolution : (1 : Nat) < ([1, 2] : Bytes).length ∧ (1 : Nat) < ([3, 4] : Bytes).length := by
  decide
theorem witness_EncryptCompletion : (idleWith sectionPT []).secbuf.wf = true := by decide +kernel
/-- V-E4: the same payload under another old tag. -/
theorem witness_EncryptIgnoresOldTag :
    (idleWith (hex 20 0xAAAAAAAAAAAAAAAAAAAAAAAAAAAAAAAAAAAAAAAA ++ payloadPT) []).secbuf.wf = true ∧
      (idleWith (hex 20 0xAAAAAAAAAAAAAAAAAAAAAAAAAAAAAAAAAAAAAAAA ++ payloadPT) []).secbuf.bytes.drop 20 =
        (idleWith sectionPT []).secbuf.bytes.drop 20 ∧ idle.keyrom = (idleWith sectionPT []).keyrom := by
  decide +kernel
/-- Clause 1 at Gen3, after two generations that do not verify. -/
theorem witness_DecryptCompletion_success :
    (idleWith sectionE3 []).secbuf.wf = true ∧ verifies (rootKey idle.keyrom .gen3) (idleWith sectionE3 []).secbuf.bytes ∧
      ∀ g : Gen, g.code < Gen.gen3.code → ¬verifies (rootKey idle.keyrom g) (idleWith sectionE3 []).secbuf.bytes := by
  have hb : (idleWith sectionE3 []).secbuf.bytes = sectionE3 := bytes_E3
  have hl : sectionE3.length = 48 := by decide
  refine ⟨by decide +kernel, ?_, fun g hg => ?_⟩ <;> rw [hb, verifies_iff hl]
  · show (attempt key3.toList sectionE3).1 = true
    rw [test_attempt3]
  · cases g with
    | gen1 => show ¬(attempt key1.toList sectionE3).1 = true; rw [test_attempt1]; decide
    | gen2 => show ¬(attempt key1.toList sectionE3).1 = true; rw [test_attempt1]; decide
    | gen3 => exact absurd hg (by decide)
/-- Clause 1 at Gen1, with every generation verifying (V-P1's contrived keys): the first wins. -/
theorem witness_DecryptCompletion_priority (g : Gen) :
    verifies (rootKey ⟨key3, key3, key3⟩ g) (idleWith sectionE3 []).secbuf.bytes := by
  rw [show (idleWith sectionE3 []).secbuf.bytes = sectionE3 from bytes_E3, verifies_iff (by decide)]
  cases g <;> (show (attempt key3.toList sectionE3).1 = true; rw [test_attempt3])
/-- Clause 2. -/
theorem witness_DecryptCompletion_failure (g : Gen) :
    ¬verifies (rootKey ⟨key1, key1, key1⟩ g) (idleWith sectionE3 []).secbuf.bytes := by
  rw [show (idleWith sectionE3 []).secbuf.bytes = sectionE3 from bytes_E3, verifies_iff (by decide)]
  cases g <;> (show ¬(attempt key1.toList sectionE3).1 = true; rw [test_attempt1]; decide)
/-- The input of a Gen3 round trip. -/
def roundTripInput : List Event := [.ht (wr 0x30 0x302), .engine, .ht (wr 0x30 1), .engine]
/-- At Gen3, where the side condition on Gen1 and Gen2 is not empty, and it holds. -/
theorem witness_EncryptThenDecryptRestoresPayload :
    (idleWith sectionPT roundTripInput).secbuf.wf = true ∧ (idleWith sectionPT roundTripInput).eng = .idle ∧
      BitVec.ofNat 32 (256 * Gen.gen3.code + 2) = 0x302 ∧
      ∃ e, runSteps 2 (idleWith sectionPT roundTripInput) = .next e ∧
        ∀ g : Gen, g.code < Gen.gen3.code → ¬verifies (rootKey idle.keyrom g) e.secbuf.bytes := by
  refine ⟨by decide +kernel, by decide, by decide, ?_⟩
  obtain ⟨e, he, hs, -⟩ := encrypt_result
    (s := (({ idleWith sectionPT roundTripInput with inputs := roundTripInput.drop 2 }).accept 0x302).writeOkay)
    (g := .gen3) (out := sectionE3)
    (by simp only [State.writeOkay_keyrom, State.accept_keyrom, State.writeOkay_secbuf, State.accept_secbuf, idleWith,
      rootKey, bytes_PT, test_encryptFn_V_E3])
  have h1 : step (idleWith sectionPT roundTripInput) = .next
      (({ idleWith sectionPT roundTripInput with inputs := roundTripInput.drop 1 }).accept 0x302).writeOkay := rfl
  have h2 : step (({ idleWith sectionPT roundTripInput with inputs := roundTripInput.drop 1 }).accept
      0x302).writeOkay = .next e := (step_engine_busy rfl rfl).trans he
  refine ⟨e, by rw [runSteps_succ h1, runSteps_succ h2, runSteps_zero], fun g hg => ?_⟩
  have hb : e.secbuf.bytes = sectionE3 := by
    rw [hs]; exact bytes_E3_over_PT
  rw [hb, verifies_iff (by decide)]
  cases g with
  | gen1 => show ¬(attempt key1.toList sectionE3).1 = true; rw [test_attempt1]; decide
  | gen2 => show ¬(attempt key1.toList sectionE3).1 = true; rw [test_attempt1]; decide
  | gen3 => exact absurd hg (by decide)
theorem witness_InternalSequenceRefinesCompletion : State.reset.scr.length = 48 := by decide
theorem witness_HostCannotTouchCommandInFlight : (busyWith 1 []).eng = .busy := by decide
theorem witness_OutcomeIndependentOfInterleaving :
    (busyWith 0x102 [.ht (wr 0x00 7), .ht (rd 0x34), .engine, .rst]).eng = .busy ∧
      (busyWith 0x102 [.ht (wr 0x00 7), .ht (rd 0x34), .engine, .rst]).inputs =
        [wr 0x00 7, rd 0x34].map Event.ht ++ .engine :: [.rst] := by decide
theorem witness_WriteAndCompletionInEitherOrder : (busyWith 0x402 []).eng = .busy ∧
    wr (BitVec.ofNat 8 (4 * (11 : Fin 12).val)) 5 = ⟨.write, 2, 0x2C, 5⟩ := by decide
/-- OVR: set by a dropped write, cleared by W1C and by reset. -/
theorem witness_OverrunFlagLifecycle : after (busyWith 1 []) (wr 0x30 1) (fun t => t.ovr) = true ∧
    after (busyWith 1 []) (wr 0x2C 1) (fun t => t.ovr) = true ∧
    after { idle with ovr := true } (wr 0x34 4) (fun t => !t.ovr) = true ∧
    nextHas (step { idleWith [] [.rst] with ovr := true }) (fun t => !t.ovr) = true := by decide +kernel
/-- DONE: set by a completion, cleared by acceptance, W1C and reset. -/
theorem witness_DoneFlagLifecycle : nextHas (step (busyWith 0 [.engine])) (fun t => t.done && t.eng == .idle) = true ∧
    after { idle with done := true } (wr 0x30 1) (fun t => !t.done) = true ∧
    after { idle with done := true } (wr 0x34 2) (fun t => !t.done) = true ∧
    nextHas (step { idleWith [] [.rst] with done := true }) (fun t => !t.done) = true := by decide +kernel
/-- BUSY: set by acceptance, cleared by a completion (with input left and without) and by reset. -/
theorem witness_BusyFlagLifecycle : after idle (wr 0x30 7) (fun t => t.eng == .busy && t.pend == 7) = true ∧
    nextHas (step (busyWith 0 [.engine])) (fun t => t.eng == .idle) = true ∧
    nextHas (step (busyWith 0 [])) (fun t => t.eng == .idle) = true ∧
    nextHas (step (busyWith 0 [.rst])) (fun t => t.eng == .idle && !t.done) = true := by decide +kernel
/-- Before and after the acknowledgement; and the two other ways. -/
theorem witness_OutcomeStableUntilAcceptance :
    after { idle with done := true, err := .illegalCommand } (wr 0x34 2)
        (fun t => t.err == .illegalCommand && !t.done) = true ∧
      after { idle with err := .illegalCommand } (rd 0x34) (fun t => t.err == .illegalCommand) = true ∧
      after { idle with err := .illegalCommand } (wr 0x30 1) (fun t => t.err == .ok) = true ∧
      nextHas (step { idleWith [] [.rst] with err := .illegalCommand }) (fun t => t.err == .ok) = true ∧
      idle.eng = .idle := by decide +kernel
/-- An infinite input on which every other turn is the ENGINE's is fair, and on it a command completes. -/
theorem witness_FairInputCompletesEveryCommand :
    InfiniteInput.fair (fun n => if n % 2 = 0 then .ht (wr 0x30 0) else .engine) ∧
      nextHas (runInput (fun n => if n % 2 = 0 then .ht (wr 0x30 0) else .engine) 2 idle)
        (fun t => t.err == .illegalCommand && t.done) = true :=
  ⟨fun n => ⟨2 * n + 1, by omega, by simp [Nat.add_mod]⟩, by decide +kernel⟩
theorem witness_KeyromIsImmutable : ∃ t, step (idleWith [] [.rst]) = .next t := ⟨_, rfl⟩
/-- Two states that differ in the hidden state only. -/
theorem witness_HiddenStateIsUnobservable : idle.forgetHidden = { idle with seed := [1], rc4I := 7 }.forgetHidden ∧
    idle.seed ≠ [1] := ⟨rfl, by decide⟩

end Sys2Proof.Tests
end

section
/-! The life cycles of STATUS.BUSY, DONE and OVR (10_state.md R25 to R27): what one step can do to the three flags is
said once, by `FlagStep`, and each life cycle is read off its cases. -/

namespace Sys2Proof.Machine

/-- What the turn from s to t is, and what it does to ENG, DONE and OVR. -/
inductive FlagStep (s t : State) : Prop where
  /-- An RST event (70_reset_and_hazards.md R240). -/
  | reset {rest : List Event} (input : s.inputs = .rst :: rest)
      (eng : t.eng = .idle) (done : t.done = false) (ovr : t.ovr = false)
  /-- A completion (41_section_cipher.md R140), on the ENGINE's turn or with no input left. -/
  | complete (input : s.inputs = [] ∨ ∃ rest, s.inputs = .engine :: rest) (busy : s.eng = .busy)
      (eng : t.eng = .idle) (done : t.done = true) (ovr : t.ovr = s.ovr)
  /-- A turn of the idle ENGINE, or an idle block that waits. -/
  | pass (input : s.inputs = [] ∨ ∃ rest, s.inputs = .engine :: rest) (idle : s.eng = .idle)
      (eng : t.eng = s.eng) (done : t.done = s.done) (ovr : t.ovr = s.ovr)
  /-- A SECBUF or CMD write dropped because BUSY = 1 (60_exceptions.md R215). -/
  | drop {h : HT} {rest : List Event} (input : s.inputs = .ht h :: rest) (busy : s.eng = .busy)
      (write : (∃ i v, decodeHT h = .secbufWr i v) ∨ ∃ v, decodeHT h = .cmdWr v)
      (eng : t.eng = s.eng) (done : t.done = s.done) (ovr : t.ovr = true)
  /-- A CMD write while idle: acceptance (41_section_cipher.md R135). -/
  | accept {h : HT} {rest : List Event} {v : Word} (input : s.inputs = .ht h :: rest) (idle : s.eng = .idle)
      (write : decodeHT h = .cmdWr v)
      (eng : t.eng = .busy) (pend : t.pend = v) (done : t.done = false) (ovr : t.ovr = s.ovr)
  /-- A STATUS write: W1C of DONE and OVR (42_host_registers.md R186). -/
  | acknowledge {h : HT} {rest : List Event} {v : Word} (input : s.inputs = .ht h :: rest)
      (write : decodeHT h = .statusWr v)
      (eng : t.eng = s.eng) (done : t.done = w1c s.done (v.getLsbD 1)) (ovr : t.ovr = w1c s.ovr (v.getLsbD 2))
  /-- Every other host transaction. -/
  | access {h : HT} {rest : List Event} (input : s.inputs = .ht h :: rest)
      (notCmd : ∀ v, decodeHT h ≠ .cmdWr v) (notStatus : ∀ v, decodeHT h ≠ .statusWr v)
      (notDropped : s.eng = .busy → ∀ i v, decodeHT h ≠ .secbufWr i v)
      (eng : t.eng = s.eng) (done : t.done = s.done) (ovr : t.ovr = s.ovr)

/-- A CMD write while BUSY is dropped (42_host_registers.md R183). -/
theorem exec_cmdWr_busy {s : State} (hb : s.eng = .busy) (v : Word) : exec (.cmdWr v) s = .next s.dropWrite :=
  if_pos ((State.busy_iff s).mpr hb)

/-- A CMD write while idle is accepted (R183). -/
theorem exec_cmdWr_idle {s : State} (hi : s.eng = .idle) (v : Word) :
    exec (.cmdWr v) s = .next (s.accept v).writeOkay :=
  if_neg (by simp [(State.not_busy_iff s).mpr hi])

/-- A SECBUF write while BUSY is dropped (R181). -/
theorem exec_secbufWr_busy {s : State} (hb : s.eng = .busy) (i : Fin 12) (v : Word) :
    exec (.secbufWr i v) s = .next s.dropWrite :=
  if_pos ((State.busy_iff s).mpr hb)

/-- A STATUS write acknowledges (R186). -/
theorem exec_statusWr (v : Word) (s : State) : exec (.statusWr v) s = .next (s.acknowledge v).writeOkay := rfl

/-- A host transaction that is no CMD write, no STATUS write and no dropped SECBUF write keeps the three flags. -/
theorem exec_decodeHT_keeps_flags {h : HT} {s t : State} (hcmd : ∀ v, decodeHT h ≠ .cmdWr v)
    (hstatus : ∀ v, decodeHT h ≠ .statusWr v) (hdrop : s.eng = .busy → ∀ i v, decodeHT h ≠ .secbufWr i v)
    (ht : exec (decodeHT h) s = .next t) : t.eng = s.eng ∧ t.done = s.done ∧ t.ovr = s.ovr := by
  rcases exec_decodeHT_cases h s with ⟨r, he⟩ | ⟨hb, hw, -⟩ | ⟨-, i, v, -, he⟩ | ⟨-, v, hv, -⟩ | ⟨v, hv, -⟩ |
    ⟨v, -, he⟩ | ⟨v, -, he⟩ | ⟨v, -, he⟩ | ⟨v, -, he⟩ | ⟨v, -, he⟩
  case inr.inl =>
    obtain ⟨i, v, hv⟩ | ⟨v, hv⟩ := hw
    · exact absurd hv (hdrop hb i v)
    · exact absurd hv (hcmd v)
  case inr.inr.inr.inl => exact absurd hv (hcmd v)
  case inr.inr.inr.inr.inl => exact absurd hv (hstatus v)
  all_goals
    obtain rfl := Host.Outcome.next.inj (he.symm.trans ht)
    simp [apply_ite State.eng, apply_ite State.done, apply_ite State.ovr]

/-- A host transaction's turn is one of the four host cases of `FlagStep`. -/
theorem flagStep_of_ht {s t : State} {h : HT} {rest : List Event} (input : s.inputs = .ht h :: rest)
    (ht : exec (decodeHT h) { s with inputs := rest } = .next t) : FlagStep s t := by
  by_cases hcmd : ∃ v, decodeHT h = .cmdWr v
  · obtain ⟨v, hv⟩ := hcmd
    rw [hv] at ht
    cases heng : s.eng with
    | idle =>
      obtain rfl := Host.Outcome.next.inj (ht.symm.trans (exec_cmdWr_idle (s := { s with inputs := rest }) heng v))
      exact .accept input heng hv rfl rfl rfl rfl
    | busy =>
      obtain rfl := Host.Outcome.next.inj (ht.symm.trans (exec_cmdWr_busy (s := { s with inputs := rest }) heng v))
      exact .drop input heng (.inr ⟨v, hv⟩) rfl rfl rfl
  by_cases hstatus : ∃ v, decodeHT h = .statusWr v
  · obtain ⟨v, hv⟩ := hstatus
    rw [hv] at ht
    obtain rfl := Host.Outcome.next.inj (ht.symm.trans (exec_statusWr v _))
    exact .acknowledge input hv rfl rfl rfl
  by_cases hdrop : s.eng = .busy ∧ ∃ i v, decodeHT h = .secbufWr i v
  · obtain ⟨hb, i, v, hv⟩ := hdrop
    rw [hv] at ht
    obtain rfl := Host.Outcome.next.inj (ht.symm.trans (exec_secbufWr_busy (s := { s with inputs := rest }) hb i v))
    exact .drop input hb (.inl ⟨i, v, hv⟩) rfl rfl rfl
  · have hsec : s.eng = .busy → ∀ i v, decodeHT h ≠ .secbufWr i v := fun hb i v hv => hdrop ⟨hb, i, v, hv⟩
    rw [not_exists] at hcmd hstatus
    obtain ⟨eng, done, ovr⟩ := exec_decodeHT_keeps_flags (s := { s with inputs := rest }) hcmd hstatus hsec ht
    exact .access input hcmd hstatus hsec eng done ovr

/-- Every step is one of the cases of `FlagStep`. -/
theorem flagStep_of_step {s t : State} (ht : step s = .next t) : FlagStep s t := by
  have engineInput : ∀ {rest : List Event}, (s.inputs = .engine :: rest ∨ (s.inputs = [] ∧ rest = [])) →
      s.inputs = [] ∨ ∃ rest, s.inputs = .engine :: rest := fun hin =>
    hin.elim (fun he => .inr ⟨_, he⟩) (fun hn => .inl hn.1)
  rcases step_cases s with ⟨h, rest, hin, hs⟩ | ⟨rest, hin, hs⟩ | ⟨rest, hin, heng, hs⟩ | ⟨rest, hin, heng, hs⟩
  · exact flagStep_of_ht hin (hs.symm.trans ht)
  · obtain rfl := Host.Outcome.next.inj (hs.symm.trans ht)
    exact .reset hin rfl rfl rfl
  · rw [exec_decodeCW] at hs
    obtain rfl := Host.Outcome.next.inj (hs.symm.trans ht)
    exact .complete (engineInput hin) heng rfl rfl rfl
  · obtain rfl := Host.Outcome.next.inj (hs.symm.trans ht)
    exact .pass (engineInput hin) heng rfl rfl rfl

/-- The head and the tail of a given input are the only ones there are to speak of. -/
theorem forall_eq_eq_imp_iff {α β γ : Type} {a : α} {b : β} {p : α → β → γ → Prop} :
    (∀ a' b' c, a = a' → b = b' → p a' b' c) ↔ ∀ c, p a b c :=
  ⟨fun h c => h a b c rfl rfl, by rintro h _ _ c rfl rfl; exact h c⟩

/-- Settles O53, by the cases of `FlagStep`: only a dropped write sets OVR, only a STATUS write or reset clears it. -/
theorem overrunFlagLifecycle : Obligations.OverrunFlagLifecycle := by
  intro s t ht
  cases flagStep_of_step ht with
  | reset input eng done ovr => simp [input, ovr]
  | complete input busy eng done ovr => rcases input with input | ⟨rest, input⟩ <;> simp [input, ovr]
  | pass input idle eng done ovr => rcases input with input | ⟨rest, input⟩ <;> simp [input, ovr]
  | drop input busy write eng done ovr =>
    rcases write with ⟨i, w, write⟩ | ⟨w, write⟩ <;> simp [forall_eq_eq_imp_iff, input, busy, write, ovr]
  | accept input idle write eng pend done ovr => simp [forall_eq_eq_imp_iff, input, idle, write, ovr]
  | acknowledge input write eng done ovr =>
    cases hovr : s.ovr <;> simp [forall_eq_eq_imp_iff, input, write, ovr, hovr, w1c]
  | access input notCmd notStatus notDropped eng done ovr =>
    cases heng : s.eng with
    | idle => simp [forall_eq_eq_imp_iff, input, notCmd, notStatus, ovr]
    | busy => simp [forall_eq_eq_imp_iff, input, notDropped heng, notCmd, notStatus, ovr]

/-- Settles O54, by the cases of `FlagStep`: only a completion sets DONE; acceptance, a STATUS write and reset clear
it. -/
theorem doneFlagLifecycle : Obligations.DoneFlagLifecycle := by
  intro s t ht
  cases flagStep_of_step ht with
  | reset input eng done ovr => simp [input, done]
  | complete input busy eng done ovr => rcases input with input | ⟨rest, input⟩ <;> simp [input, busy, eng, done]
  | pass input idle eng done ovr => rcases input with input | ⟨rest, input⟩ <;> simp [input, idle, eng, done]
  | drop input busy write eng done ovr =>
    rcases write with ⟨i, w, write⟩ | ⟨w, write⟩ <;> simp [forall_eq_eq_imp_iff, input, busy, write, eng, done]
  | accept input idle write eng pend done ovr => simp [input, idle, write, eng, done]
  | acknowledge input write eng done ovr =>
    cases hdone : s.done <;> simp +contextual [forall_eq_eq_imp_iff, input, write, eng, done, hdone, w1c]
  | access input notCmd notStatus notDropped eng done ovr =>
    simp [forall_eq_eq_imp_iff, input, notCmd, notStatus, eng, done]

/-- Settles O55, by the cases of `FlagStep`: only acceptance sets BUSY, only a completion or reset clears it. -/
theorem busyFlagLifecycle : Obligations.BusyFlagLifecycle := by
  intro s t ht
  cases flagStep_of_step ht with
  | reset input eng done ovr => simp [input, eng]
  | complete input busy eng done ovr => rcases input with input | ⟨rest, input⟩ <;> simp [input, busy, eng, done]
  | pass input idle eng done ovr => rcases input with input | ⟨rest, input⟩ <;> simp [input, idle, eng]
  | drop input busy write eng done ovr =>
    rcases write with ⟨i, w, write⟩ | ⟨w, write⟩ <;> simp [input, busy, write, eng]
  | accept input idle write eng pend done ovr => simp [input, idle, write, eng, pend]
  | acknowledge input write eng done ovr =>
    cases heng : s.eng <;> simp [forall_eq_eq_imp_iff, input, write, eng, heng]
  | access input notCmd notStatus notDropped eng done ovr =>
    cases heng : s.eng <;> simp [forall_eq_eq_imp_iff, input, notCmd, eng, heng]

end Sys2Proof.Machine
end

section
/-! The sample words of 30_encoding.md R93 and 95_test_vectors.md: what the two decoders answer on a command word of
given fields and on the access of a given register, and that a table word decodes as the pattern it holds. -/

namespace Sys2Proof

/-! ### The fields of a command word (R83) -/

@[simp] theorem cwOp_cwWord (gen op : BitVec 8) : cwOp (cwWord gen op) = op :=
  BitVec.extractLsb'_append_eq_right

@[simp] theorem cwGen_cwWord (gen op : BitVec 8) : cwGen (cwWord gen op) = gen := by
  have hgen : cwGen (cwWord gen op) = ((0 : BitVec 16) ++ gen).extractLsb' 0 8 :=
    BitVec.extractLsb'_append_eq_of_le (le_refl 8)
  rw [hgen, BitVec.extractLsb'_append_eq_right]

@[simp] theorem cwRsv_cwWord (gen op : BitVec 8) : cwRsv (cwWord gen op) = 0 := by
  have hrsv : cwRsv (cwWord gen op) = ((0 : BitVec 16) ++ gen).extractLsb' 8 16 :=
    BitVec.extractLsb'_append_eq_of_le (by decide)
  rw [hrsv, BitVec.extractLsb'_append_eq_left]

/-! ### Command words, by their rows (R84 to R88) -/

theorem genOfCode_code (g : Gen) : genOfCode (BitVec.ofNat 8 g.code) = some g := by
  cases g <;> rfl

theorem genOfCode_of_badGenCode {gen : BitVec 8} (h : badGenCode gen = true) : genOfCode gen = none := by
  simp only [badGenCode, Bool.not_eq_true', Bool.or_eq_false_iff, decide_eq_false_iff_not] at h
  obtain ⟨⟨h1, h2⟩, h3⟩ := h
  rw [genOfCode, if_neg h1, if_neg h2, if_neg h3]

theorem decodeCW_cwWord_decrypt : decodeCW (cwWord 0 0x01) = .decrypt := by
  simp [decodeCW]

theorem decodeCW_cwWord_encrypt (g : Gen) : decodeCW (cwWord (BitVec.ofNat 8 g.code) 0x02) = .encrypt g := by
  simp [decodeCW, genOfCode_code]

theorem decodeCW_cwWord_badGenCode {gen : BitVec 8} (h : badGenCode gen = true) :
    decodeCW (cwWord gen 0x02) = .encryptBadgen gen := by
  simp [decodeCW, genOfCode_of_badGenCode h]

/-- The words of 41_section_cipher.md R149, in the fields that the decoder tests. -/
theorem illegalWord_iff (w : Word) :
    illegalWord w = true ↔ cwRsv w ≠ 0 ∨ (cwOp w ≠ 0x01 ∧ cwOp w ≠ 0x02) ∨ (cwOp w = 0x01 ∧ cwGen w ≠ 0) := by
  simp [illegalWord, cwRsv, cwOp, cwGen, or_assoc]

theorem decodeCW_of_illegalWord {w : Word} (h : illegalWord w = true) : decodeCW w = .illegal w := by
  obtain hrsv | ⟨hop1, hop2⟩ | ⟨hop, hgen⟩ := (illegalWord_iff w).mp h
  · rw [decodeCW, if_pos hrsv]
  · rw [decodeCW, if_neg hop1, if_neg hop2, ite_self]
  · rw [decodeCW, if_pos hop, if_pos hgen, ite_self]

/-! ### Host transactions, by their registers (R82) -/

theorem regOfIndex_index_secbufW (i : Fin 12) : regOfIndex (Reg.secbufW i).index = .secbufW i :=
  (by decide : ∀ i : Fin 12, regOfIndex (Reg.secbufW i).index = .secbufW i) i

theorem regOfIndex_of_reservedIndex {o : BitVec 6} (h : reservedIndex o = true) : regOfIndex o = .reserved o :=
  (by decide : ∀ o : BitVec 6, reservedIndex o = true → regOfIndex o = .reserved o) o h

/-- An access is a BusError as 60_exceptions.md R214 says. -/
theorem decodeHT_of_malformedAccess {t : HT} (h : malformedAccess t.size t.off = true) :
    decodeHT t = .buserr t.dir t.size t.off :=
  if_pos (by simpa [malformedAccess] using h)

theorem decodeHT_writeHT_secbufW (i : Fin 12) (v : Word) : decodeHT (writeHT (.secbufW i) v) = .secbufWr i v := by
  rw [decodeHT_writeHT, regOfIndex_index_secbufW, writeOp]

theorem decodeHT_readHT_id : decodeHT (readHT .id) = .idRd := decodeHT_readHT .id

theorem decodeHT_writeHT_ckPushw (v : Word) : decodeHT (writeHT .ckPushw v) = .ckPushw v := decodeHT_writeHT .ckPushw v

theorem decodeHT_readHT_reserved {o : BitVec 6} (h : reservedIndex o = true) :
    decodeHT (readHT (.reserved o)) = .rsvRd o := by
  rw [decodeHT_readHT, Reg.index, regOfIndex_of_reservedIndex h, readOp]

/-! ### Table words (log entry 9) -/

/-- The table word of a command word decodes as the command word does. -/
theorem decodeTableWord_cw {w : Word} {n : Nat} {i : Instr} (hi : decodeCW w = i) (hn : w.toNat = n) :
    decodeTableWord 32 n = some i := by
  have hb : decodeBytes (Machine.bytesOfNat (formatBytes 32) n) = .ok i := by
    rw [← hn, ← hi]
    exact decodeBytes_cw w
  rw [decodeTableWord, hb]

/-- The table word of a transaction's pattern decodes as the transaction does. -/
theorem decodeTableWord_ht {t : HT} {n : Nat} {i : Instr} (hi : decodeHT t = i) (hn : t.toPattern.toNat = n) :
    decodeTableWord 43 n = some i := by
  have hb : decodeBytes (Machine.bytesOfNat (formatBytes 43) n) = .ok i := by
    rw [← hn, ← hi]
    exact decodeBytes_ht t
  rw [decodeTableWord, hb]

theorem decodeTableWord_illegal {w : Word} (h : illegalWord w = true) :
    decodeTableWord 32 w.toNat = some (.illegal w) :=
  decodeTableWord_cw (decodeCW_of_illegalWord h) rfl

/-- Settles O5, by the rows: each command word is the word of its row's fields (R83) or one that R149 calls illegal,
and each pattern is that of the access the test vector makes (R81). -/
theorem specSampleWordsDecode : Obligations.SpecSampleWordsDecode :=
  ⟨decodeTableWord_cw decodeCW_cwWord_decrypt (by decide),
    decodeTableWord_cw (decodeCW_cwWord_encrypt .gen1) (by decide),
    decodeTableWord_cw (decodeCW_cwWord_encrypt .gen2) (by decide),
    decodeTableWord_cw (decodeCW_cwWord_encrypt .gen3) (by decide),
    decodeTableWord_cw (decodeCW_cwWord_badGenCode (gen := 0) (by decide)) (by decide),
    decodeTableWord_cw (decodeCW_cwWord_badGenCode (gen := 4) (by decide)) (by decide),
    decodeTableWord_illegal (w := 0x00000101) (by decide),
    decodeTableWord_illegal (w := 0x00010001) (by decide),
    decodeTableWord_illegal (w := 0x00000000) (by decide),
    decodeTableWord_illegal (w := 0x00000003) (by decide),
    decodeTableWord_ht (decodeHT_writeHT_secbufW 5 0x44332211) (by decide),
    decodeTableWord_ht decodeHT_readHT_id (by decide),
    decodeTableWord_ht (decodeHT_writeHT_ckPushw 0x10) (by decide),
    decodeTableWord_ht (decodeHT_readHT_reserved (o := 0x3F) (by decide)) (by decide),
    decodeTableWord_ht (t := ⟨.write, 2, 0x31, 1⟩) (decodeHT_of_malformedAccess (by decide)) (by decide)⟩

end Sys2Proof
end

section
/-! The register operations of the checksum unit (40_checksum.md R105 to R111, R113), each with its decode: what
every operation answers is an equation of its own, the words it reads and adds are given in exact numbers. -/

namespace Sys2Proof.Machine

/-! ### Numbers and fields -/

/-- A flag as bit n of a word, in numbers. -/
theorem flagBit_toNat (b : Bool) {n : Nat} (hn : n < 32) : (flagBit b n).toNat = if b = true then 2 ^ n else 0 := by
  have hpow : 2 ^ n < 2 ^ 32 := Nat.pow_lt_pow_right (by decide) hn
  cases b with
  | false => simp [flagBit]
  | true => simpa [flagBit, Nat.shiftLeft_eq] using hpow

/-- The word that CK_STAT reads as (R111), in numbers: DROP and CK_BCNT do not overlap. -/
theorem ckStatWord_toNat (s : State) : (ckStatWord s).toNat = (if s.ckDrop = true then 256 else 0) + s.ckBcnt.val := by
  have hcount : s.ckBcnt.val < 2 ^ 8 := Nat.lt_trans s.ckBcnt.isLt (by decide)
  have hword : s.ckBcnt.val % 2 ^ 32 = s.ckBcnt.val := Nat.mod_eq_of_lt (by omega)
  rw [ckStatWord, BitVec.toNat_or, BitVec.toNat_ofNat, hword, flagBit_toNat _ (by decide)]
  cases s.ckDrop with
  | false => simp
  | true => exact (Nat.two_pow_add_eq_or_of_lt hcount 1).symm

/-- The byte a CK_PUSHB takes (30_encoding.md R87), in numbers. -/
theorem pushByte_toNat (v : Word) : (pushByte v).toNat = v.toNat % 256 := by
  simp [pushByte, byteOf_toNat]

/-- A W1C flag keeps its value unless it is cleared (00_scope.md R18). -/
theorem w1c_eq_ite (flag clear : Bool) : w1c flag clear = if clear = true then false else flag := by
  cases clear <;> simp [w1c]

/-- One word accumulated, with the carry in exact numbers (R100). -/
theorem State.accumulate_eq (s : State) (w : Word) : s.accumulate w = { s with
    ckSum := s.ckSum + w
    ckCarry := if 2 ^ 32 ≤ s.ckSum.toNat + w.toNat then s.ckCarry + 1 else s.ckCarry } := by
  rw [State.accumulate, ckAcc_eq]

/-! ### One equation per register operation -/

theorem exec_ckPushw (v : Word) (s : State) : exec (.ckPushw v) s = .next (s.dropPending.accumulate v).writeOkay := rfl

theorem exec_ckPushb (v : Word) (s : State) : exec (.ckPushb v) s = .next (s.pushLane (pushByte v)).writeOkay := rfl

theorem exec_ckClear (v : Word) (s : State) :
    exec (.ckClear v) s = .next (if v.getLsbD 0 = true then s.clearChecksum else s).writeOkay := rfl

theorem exec_ckStatWr (v : Word) (s : State) :
    exec (.ckStatWr v) s = .next { s with ckDrop := w1c s.ckDrop (v.getLsbD 8), response := some .written } := rfl

theorem exec_ckStatRd (s : State) : exec .ckStatRd s = .next (s.readOkay (ckStatWord s)) := rfl

theorem exec_ckSumRd (s : State) : exec .ckSumRd s = .next (s.readOkay s.ckSum) := rfl

theorem exec_ckCarryRd (s : State) : exec .ckCarryRd s = .next (s.readOkay s.ckCarry) := rfl

theorem exec_ckResultRd (s : State) : exec .ckResultRd s = .next (s.readOkay (ckFold s.ckSum s.ckCarry)) := rfl

/-! ### The lane, by its count (R106) -/

theorem State.pushLane_of_ckBcnt_zero {s : State} (h : s.ckBcnt = 0) (b : Byte) :
    s.pushLane b = { s with ckBbuf := { s.ckBbuf with b0 := b }, ckBcnt := 1 } := by
  rw [State.pushLane, h]

theorem State.pushLane_of_ckBcnt_one {s : State} (h : s.ckBcnt = 1) (b : Byte) :
    s.pushLane b = { s with ckBbuf := { s.ckBbuf with b1 := b }, ckBcnt := 2 } := by
  rw [State.pushLane, h]

theorem State.pushLane_of_ckBcnt_two {s : State} (h : s.ckBcnt = 2) (b : Byte) :
    s.pushLane b = { s with ckBbuf := { s.ckBbuf with b2 := b }, ckBcnt := 3 } := by
  rw [State.pushLane, h]

theorem State.pushLane_of_ckBcnt_three {s : State} (h : s.ckBcnt = 3) (b : Byte) :
    s.pushLane b = (s.accumulate (le32 s.ckBbuf.b0 s.ckBbuf.b1 s.ckBbuf.b2 b)).emptyLane := by
  rw [State.pushLane, h]

/-! ### The obligations -/

/-- Settles O30, by the equation of each read; CK_STAT's word in numbers is `ckStatWord_toNat`. -/
theorem checksumReads : Obligations.ChecksumReads := fun x s =>
  ⟨⟨decodeHT_read (Reg.off_aligned .ckStat) x, ckStatWord s, exec_ckStatRd s, ckStatWord_toNat s⟩,
    ⟨decodeHT_read (Reg.off_aligned .ckSum) x, exec_ckSumRd s⟩,
    ⟨decodeHT_read (Reg.off_aligned .ckCarry) x, exec_ckCarryRd s⟩,
    ⟨decodeHT_read (Reg.off_aligned .ckResult) x, exec_ckResultRd s⟩⟩

/-- Settles O31: the lane is emptied as `State.dropPending_eq` says, then the word is accumulated. -/
theorem wordPushAccumulates : Obligations.WordPushAccumulates := by
  refine fun v s => ⟨decodeHT_writeHT .ckPushw v, ?_⟩
  rw [exec_ckPushw, State.accumulate_eq, State.dropPending_eq]
  rfl

/-- Settles O32, by the count of the lane: three bytes wait in it, and the fourth completes a word. -/
theorem bytePushAssemblesWords : Obligations.BytePushAssemblesWords := by
  intro v s
  refine ⟨decodeHT_writeHT .ckPushb v, fun h => ?_, fun h => ?_, fun h => ?_, fun h =>
    ⟨le32 s.ckBbuf.b0 s.ckBbuf.b1 s.ckBbuf.b2 (pushByte v), ?_, ?_⟩⟩
  · rw [exec_ckPushb, State.pushLane_of_ckBcnt_zero h]; rfl
  · rw [exec_ckPushb, State.pushLane_of_ckBcnt_one h]; rfl
  · rw [exec_ckPushb, State.pushLane_of_ckBcnt_two h]; rfl
  · rw [le32_toNat, pushByte_toNat]
  · rw [exec_ckPushb, State.pushLane_of_ckBcnt_three h, State.accumulate_eq]; rfl

/-- Settles O33, by bit 0: CLEAR, or the state as it was. -/
theorem clearZeroesChecksumUnit : Obligations.ClearZeroesChecksumUnit := by
  refine fun v s => ⟨decodeHT_writeHT .ckCtrl v, fun hset => ?_, fun hunset => ?_⟩
  · rw [exec_ckClear, if_pos hset]; rfl
  · rw [exec_ckClear, if_neg (ne_true_of_eq_false hunset)]; rfl

/-- Settles O34: DROP is a W1C flag of bit 8. -/
theorem ckStatWriteClearsDrop : Obligations.CkStatWriteClearsDrop := by
  refine fun v s => ⟨decodeHT_writeHT .ckStat v, ?_⟩
  rw [exec_ckStatWr, w1c_eq_ite]

end Sys2Proof.Machine
end

section
/-! Completions at the level of the machine's runs (41_section_cipher.md R136, R138, R146, R152): the ENGINE's turn
leaves no command in flight; DECRYPT by the first generation that verifies; and a command's CMD write and completion as one
equation, from which ENCRYPT and then DECRYPT are put together. -/

namespace Sys2Proof.Machine

/-! ### Runs on an infinite input (R136) -/

/-- Every host transaction answers a next state (30_encoding.md R82). -/
theorem exists_exec_decodeHT_eq_next (h : HT) (s : State) : ∃ t, exec (decodeHT h) s = .next t := by
  rcases exec_decodeHT_cases h s with ⟨r, he⟩ | ⟨-, -, he⟩ | ⟨-, i, v, -, he⟩ | ⟨-, v, -, he⟩ | ⟨v, -, he⟩ |
    ⟨v, -, he⟩ | ⟨v, -, he⟩ | ⟨v, -, he⟩ | ⟨v, -, he⟩ | ⟨v, -, he⟩
  all_goals exact ⟨_, he⟩

theorem exists_step_eq_next (s : State) : ∃ t, step s = .next t := by
  rcases step_cases s with ⟨h, rest, -, hs⟩ | ⟨rest, -, hs⟩ | ⟨rest, -, -, hs⟩ | ⟨rest, -, -, hs⟩
  · rw [hs]
    exact exists_exec_decodeHT_eq_next h _
  · exact ⟨_, hs⟩
  · exact ⟨_, hs.trans (exec_decodeCW s.pend _)⟩
  · exact ⟨_, hs⟩

theorem exists_runInput_eq_next (input : InfiniteInput) (s : State) : ∀ k, ∃ t, runInput input k s = .next t
  | 0 => ⟨s, runInput_zero input s⟩
  | k + 1 => by
    obtain ⟨t, ht⟩ := exists_runInput_eq_next input s k
    rw [runInput_succ ht]
    exact exists_step_eq_next _

/-- The ENGINE's turn completes the command in flight, or passes because there is none. -/
theorem stepOn_engine_ends_idle (s : State) : ∃ t, stepOn .engine s = .next t ∧ t.eng = .idle := by
  cases heng : s.eng with
  | idle => exact ⟨_, step_engine_idle rfl heng, heng⟩
  | busy =>
    have hstep : stepOn .engine s = exec (decodeCW s.pend) s :=
      step_engine_busy (s := { s with inputs := .engine :: s.inputs }) rfl heng
    exact ⟨_, hstep.trans (exec_decodeCW s.pend s), State.complete_eng _ _ _⟩

theorem runInput_engine_ends_idle {input : InfiniteInput} {m : Nat} (hm : input m = .engine) (s : State) :
    ∃ t, runInput input (m + 1) s = .next t ∧ t.eng = .idle := by
  obtain ⟨u, hu⟩ := exists_runInput_eq_next input s m
  rw [runInput_succ hu, hm]
  exact stepOn_engine_ends_idle u

/-- Settles O12: the ENGINE's turn leaves it idle, and on a fair input that turn comes after every point. -/
theorem fairInputCompletesEveryCommand : Obligations.FairInputCompletesEveryCommand := by
  refine fun input s => ⟨fun m hm => runInput_engine_ends_idle hm s, fun hfair k => ?_⟩
  obtain ⟨m, hkm, hm⟩ := hfair k
  obtain ⟨t, ht, hidle⟩ := runInput_engine_ends_idle hm s
  exact ⟨m + 1, t, Nat.le_succ_of_le hkm, ht, hidle⟩

/-! ### DECRYPT, by the first generation that verifies (R138, R146) -/

theorem Gen.code_injective : Function.Injective Gen.code := by
  intro g g'
  cases g <;> cases g' <;> simp [Gen.code]

/-- The two clauses of DECRYPT_FN decide its answer: a first generation that verifies is the only one. -/
theorem decryptFn_eq_some {keys : Gen → Bytes} {sec : Bytes} {g : Gen} (hg : (attempt (keys g) sec).1 = true)
    (hfirst : ∀ g' : Gen, g'.code < g.code → (attempt (keys g') sec).1 = false) :
    decryptFn keys sec = some (g, tagOf sec ++ (attempt (keys g) sec).2) := by
  rcases decryptFn_cases keys sec with ⟨g₀, hg₀, hfirst₀, hd⟩ | ⟨hnone, -⟩
  · have hle : ¬g₀.code < g.code := fun hlt => by simp [hfirst g₀ hlt] at hg₀
    have hge : ¬g.code < g₀.code := fun hlt => by simp [hfirst₀ g hlt] at hg
    obtain rfl : g₀ = g := Gen.code_injective (by omega)
    exact hd
  · simp [hnone g] at hg

theorem decryptFn_eq_none {keys : Gen → Bytes} {sec : Bytes} (h : ∀ g, (attempt (keys g) sec).1 = false) :
    decryptFn keys sec = none := by
  rcases decryptFn_cases keys sec with ⟨g, hg, -, -⟩ | ⟨-, hd⟩
  · simp [h g] at hg
  · exact hd

/-- The section DECRYPT commits under a key: the stored AuthTag and the deciphered payload (R138). -/
def decryptedSection (key sec : Bytes) : Bytes := sec.take 20 ++ rc4 (hmac20 key (sec.take 20)) (sec.drop 20)

theorem decryptedSection_eq_attempt {sec : Bytes} (h : sec.length = 48) (key : Bytes) :
    decryptedSection key sec = tagOf sec ++ (attempt key sec).2 := by
  rw [attempt, payloadOf_eq h]
  rfl

theorem decryptedSection_length {sec : Bytes} (h : sec.length = 48) (key : Bytes) :
    (decryptedSection key sec).length = 48 := by
  simp [decryptedSection, h]

theorem take_decryptedSection {sec : Bytes} (h : sec.length = 48) (key : Bytes) :
    (decryptedSection key sec).take 20 = sec.take 20 :=
  List.take_left' (by simp [h])

theorem drop_decryptedSection {sec : Bytes} (h : sec.length = 48) (key : Bytes) :
    (decryptedSection key sec).drop 20 = rc4 (hmac20 key (sec.take 20)) (sec.drop 20) :=
  List.drop_left' (by simp [h])

/-- The completion of a DECRYPT under the first generation that verifies. -/
theorem State.completeDecrypt_of_verifies {s : State} {g : Gen} (hg : verifies (rootKey s.keyrom g) s.secbuf.bytes)
    (hfirst : ∀ g' : Gen, g'.code < g.code → ¬verifies (rootKey s.keyrom g') s.secbuf.bytes) :
    s.completeDecrypt =
      { s with secbuf := s.secbuf.commit (decryptedSection (rootKey s.keyrom g) s.secbuf.bytes) }.complete
        .ok (some g) := by
  simp only [verifies_iff s.secbuf.bytes_length, Bool.not_eq_true] at hg hfirst
  rw [State.completeDecrypt, decryptFn_eq_some hg hfirst, decryptedSection_eq_attempt s.secbuf.bytes_length]

/-- The completion of a DECRYPT of a section that no generation verifies. -/
theorem State.completeDecrypt_of_not_verifies {s : State}
    (h : ∀ g, ¬verifies (rootKey s.keyrom g) s.secbuf.bytes) :
    s.completeDecrypt = s.complete .verificationFailed none := by
  simp only [verifies_iff s.secbuf.bytes_length, Bool.not_eq_true] at h
  rw [State.completeDecrypt, decryptFn_eq_none h]

theorem exec_decrypt (s : State) : exec .decrypt s = .next s.completeDecrypt := rfl

theorem State.completeDecrypt_secbuf_wf {s : State} (hwf : s.secbuf.wf = true) :
    s.completeDecrypt.secbuf.wf = true := by
  rcases s.completeDecrypt_cases with ⟨g, out, -, hc⟩ | ⟨-, hc⟩
  · rw [hc]
    exact Memory.wf_commit hwf out
  · rw [hc]
    exact hwf

/-- What the completion of a DECRYPT leaves outside SECBUF, the outcome and the hidden state (R140). -/
theorem State.forgetHidden_completeDecrypt (s : State) :
    s.completeDecrypt.forgetHidden = ({ s with
      secbuf := s.completeDecrypt.secbuf, eng := .idle, pend := 0, done := true, err := s.completeDecrypt.err,
      resgen := s.completeDecrypt.resgen } : State).forgetHidden := by
  rcases s.completeDecrypt_cases with ⟨g, out, -, hc⟩ | ⟨-, hc⟩
  all_goals
    rw [hc]
    rfl

/-- Settles O44, by the two completions of a DECRYPT: under the first generation that verifies, or under none. -/
theorem decryptCompletion : Obligations.DecryptCompletion := by
  intro s hwf
  have hlen := s.secbuf.bytes_length
  refine ⟨s.completeDecrypt, exec_decrypt s, fun g hg hfirst => ?_, fun hnone => ?_, fun a ha => ?_,
    s.forgetHidden_completeDecrypt⟩
  · rw [State.completeDecrypt_of_verifies hg hfirst, State.complete_secbuf,
      Memory.bytes_commit hwf (decryptedSection_length hlen _)]
    exact ⟨rfl, rfl, take_decryptedSection hlen _, drop_decryptedSection hlen _⟩
  · rw [State.completeDecrypt_of_not_verifies hnone]
    exact ⟨rfl, rfl, rfl⟩
  · rw [Memory.read_outside ha hwf, Memory.read_outside ha (State.completeDecrypt_secbuf_wf hwf)]

/-! ### ENCRYPT and then DECRYPT (R130, R152) -/

theorem xorBytes_xorBytes_cancel_right : ∀ {a b : Bytes}, a.length ≤ b.length → xorBytes (xorBytes a b) b = a
  | [], _, _ => rfl
  | x :: a, y :: b, h => by
    have ih : xorBytes (xorBytes a b) b = a := xorBytes_xorBytes_cancel_right (Nat.le_of_succ_le_succ h)
    have hbyte : x ^^^ y ^^^ y = x := by rw [BitVec.xor_assoc, BitVec.xor_self, BitVec.xor_zero]
    exact congrArg₂ List.cons hbyte ih

/-- The stream cipher is its own inverse (R130). -/
theorem rc4_rc4 (k d : Bytes) : rc4 k (rc4 k d) = d := by
  have hstream : rc4 k (rc4 k d) = xorBytes (rc4 k d) (rc4Stream d.length (rc4Ksa k)) := by
    rw [rc4, rc4_length]
  rw [hstream, rc4, xorBytes_xorBytes_cancel_right (by simp)]

/-- An encrypted section verifies under its own key, and the candidate is the payload (R152). -/
theorem attempt_encryptFn {key sec : Bytes} (h : sec.length = 48) :
    attempt key (encryptFn key sec) = (true, payloadOf sec) := by
  obtain ⟨-, htag, hpayload⟩ := encryptFn_spec (key := key) h
  simp only [attempt, htag, hpayload, rc4_rc4, beq_self_eq_true]

theorem verifies_encryptFn {key sec : Bytes} (h : sec.length = 48) : verifies key (encryptFn key sec) := by
  rw [verifies_iff (encryptFn_spec h).1, attempt_encryptFn h]

/-- Decrypting an encrypted section leaves the tag over the payload, and the payload (R152). -/
theorem decryptedSection_encryptFn {key sec : Bytes} (h : sec.length = 48) :
    decryptedSection key (encryptFn key sec) = hmac20 key (sec.drop 20) ++ sec.drop 20 := by
  obtain ⟨hlen, htag, -⟩ := encryptFn_spec (key := key) h
  rw [decryptedSection_eq_attempt hlen, htag, attempt_encryptFn h, payloadOf_eq h]

theorem exec_encrypt (g : Gen) (s : State) : exec (.encrypt g) s =
    .next ({ s with secbuf := s.secbuf.commit (encryptFn (rootKey s.keyrom g) s.secbuf.bytes) }.complete
      .ok (some g)) := rfl

theorem decodeCW_encrypt (g : Gen) : decodeCW (BitVec.ofNat 32 (256 * g.code + 2)) = .encrypt g := by
  have hword : BitVec.ofNat 32 (256 * g.code + 2) = cwWord (BitVec.ofNat 8 g.code) 0x02 := by
    cases g <;> decide
  rw [hword, decodeCW_cwWord_encrypt]

/-- A command from an idle engine: its CMD write and the ENGINE's next turn run the word from its acceptance (R135,
R136). -/
theorem runSteps_command {s : State} {w : Word} {rest : List Event} (hidle : s.eng = .idle)
    (hin : s.inputs = .ht ⟨.write, 2, 0x30, w⟩ :: .engine :: rest) :
    runSteps 2 s = exec (decodeCW w) { (s.accept w).writeOkay with inputs := rest } := by
  have hdecode : decodeHT ⟨.write, 2, 0x30, w⟩ = .cmdWr w := decodeHT_writeHT .cmd w
  have hwrite : step s = .next { (s.accept w).writeOkay with inputs := .engine :: rest } := by
    rw [step_ht hin, hdecode]
    exact exec_cmdWr_idle (s := { s with inputs := .engine :: rest }) hidle w
  have hfirst : runSteps 1 s = .next { (s.accept w).writeOkay with inputs := .engine :: rest } :=
    (runSteps_succ hwrite 0).trans (runSteps_zero _)
  rw [runSteps_succ_last hfirst]
  exact step_engine_busy rfl rfl

/-- The completion of a DECRYPT on a section encrypted under g, when no earlier generation verifies it (R152). -/
theorem State.completeDecrypt_of_encrypted {u : State} {g : Gen} {sec : Bytes} (hwf : u.secbuf.wf = true)
    (hlen : sec.length = 48) (hbytes : u.secbuf.bytes = encryptFn (rootKey u.keyrom g) sec)
    (hfirst : ∀ g' : Gen, g'.code < g.code → ¬verifies (rootKey u.keyrom g') u.secbuf.bytes) :
    ∃ m : Memory, m.bytes = hmac20 (rootKey u.keyrom g) (sec.drop 20) ++ sec.drop 20 ∧
      u.completeDecrypt = { u with secbuf := m }.complete .ok (some g) := by
  have hverifies : verifies (rootKey u.keyrom g) u.secbuf.bytes := by
    rw [hbytes]
    exact verifies_encryptFn hlen
  refine ⟨_, ?_, State.completeDecrypt_of_verifies hverifies hfirst⟩
  rw [Memory.bytes_commit hwf (decryptedSection_length u.secbuf.bytes_length _), hbytes,
    decryptedSection_encryptFn hlen]

/-- A CMD write and completion of ENCRYPT g: an idle engine, SECBUF the encrypted section, KEYROM and the rest of the
input as they were. -/
theorem runSteps_encrypt {s : State} {g : Gen} {rest : List Event} (hwf : s.secbuf.wf = true) (hidle : s.eng = .idle)
    (hin : s.inputs = .ht ⟨.write, 2, 0x30, BitVec.ofNat 32 (256 * g.code + 2)⟩ :: .engine :: rest) :
    ∃ e, runSteps 2 s = .next e ∧ e.eng = .idle ∧ e.inputs = rest ∧ e.keyrom = s.keyrom ∧
      e.secbuf.wf = true ∧ e.secbuf.bytes = encryptFn (rootKey s.keyrom g) s.secbuf.bytes := by
  rw [runSteps_command hidle hin, decodeCW_encrypt, exec_encrypt]
  exact ⟨_, rfl, rfl, rfl, rfl, Memory.wf_commit hwf _,
    Memory.bytes_commit hwf (encryptFn_spec s.secbuf.bytes_length).1⟩

theorem runSteps_decrypt {s : State} {rest : List Event} (hidle : s.eng = .idle)
    (hin : s.inputs = .ht ⟨.write, 2, 0x30, 1⟩ :: .engine :: rest) :
    runSteps 2 s = .next { (s.accept 1).writeOkay with inputs := rest }.completeDecrypt := by
  have hword : decodeCW 1 = .decrypt := decodeCW_cwWord_decrypt
  rw [runSteps_command hidle hin, hword, exec_decrypt]

/-- Settles O48: the encrypted section verifies under g, so DECRYPT takes g unless an earlier generation verifies too,
and what it commits is the tag over the payload and the payload. -/
theorem encryptThenDecryptRestoresPayload : Obligations.EncryptThenDecryptRestoresPayload := by
  intro g s rest hwf hidle hin
  obtain ⟨e, hencrypt, heidle, hein, hkeys, hewf, hbytes⟩ := runSteps_encrypt hwf hidle hin
  refine ⟨e, _, hencrypt, (runSteps_add hencrypt).trans (runSteps_decrypt heidle hein), fun hfirst => ?_⟩
  rw [← hkeys] at hbytes hfirst ⊢
  obtain ⟨m, hm, hdecrypt⟩ := State.completeDecrypt_of_encrypted
    (u := { (e.accept 1).writeOkay with inputs := rest }) hewf s.secbuf.bytes_length hbytes hfirst
  rw [hdecrypt]
  refine ⟨rfl, rfl, rfl, rfl, rfl, ?_, ?_⟩
  · exact (congrArg (List.drop 20) hm).trans (List.drop_left' (hmac20_length _ _))
  · exact (congrArg (List.take 20) hm).trans (List.take_left' (hmac20_length _ _))

end Sys2Proof.Machine
end

section
/-! The host registers (42_host_registers.md): an infinite input runs as the lists of its beginnings (R180), because a
step takes one event and neither reads nor changes the input after it; and the constant, ignored and reserved accesses
(R184, R187 to R193), each with its decode. -/

namespace Sys2Proof.Machine

/-! ### The input after a turn's event is neither read nor changed (R180) -/

theorem State.idle_or_busy (s : State) : s.eng = .idle ∨ s.eng = .busy := by
  cases s.eng <;> simp

/-- A SECBUF write while idle is stored (R181). -/
theorem exec_secbufWr_idle {s : State} (hi : s.eng = .idle) (i : Fin 12) (v : Word) :
    exec (.secbufWr i v) s = .next { s with secbuf := s.secbuf.setSecw i.val v }.writeOkay :=
  if_neg (by simp [(State.not_busy_iff s).mpr hi])

theorem State.dropPending_withInputs (s : State) (l : List Event) :
    ({ s with inputs := l } : State).dropPending = { s.dropPending with inputs := l } := by
  rw [State.dropPending_eq, State.dropPending_eq]

theorem State.pushLane_withInputs (s : State) (b : Byte) (l : List Event) :
    ({ s with inputs := l } : State).pushLane b = { s.pushLane b with inputs := l } := by
  unfold State.pushLane
  dsimp only
  split <;> rfl

theorem State.completeDecrypt_withInputs (s : State) (l : List Event) :
    ({ s with inputs := l } : State).completeDecrypt = { s.completeDecrypt with inputs := l } := by
  unfold State.completeDecrypt
  dsimp only
  cases decryptFn (rootKey s.keyrom) s.secbuf.bytes <;> rfl

/-- No instruction reads or changes the input of the turns after it. -/
theorem exec_withInputs {i : Instr} {s t : State} (h : exec i s = .next t) (l : List Event) :
    exec i { s with inputs := l } = .next { t with inputs := l } := by
  cases i with
  | decrypt =>
    obtain rfl := Host.Outcome.next.inj h
    rw [exec_decrypt, State.completeDecrypt_withInputs]
  | secbufWr k v =>
    rcases State.idle_or_busy s with heng | heng
    · obtain rfl := Host.Outcome.next.inj ((exec_secbufWr_idle heng k v).symm.trans h)
      exact exec_secbufWr_idle (s := { s with inputs := l }) heng k v
    · obtain rfl := Host.Outcome.next.inj ((exec_secbufWr_busy heng k v).symm.trans h)
      exact exec_secbufWr_busy (s := { s with inputs := l }) heng k v
  | cmdWr v =>
    rcases State.idle_or_busy s with heng | heng
    · obtain rfl := Host.Outcome.next.inj ((exec_cmdWr_idle heng v).symm.trans h)
      exact exec_cmdWr_idle (s := { s with inputs := l }) heng v
    · obtain rfl := Host.Outcome.next.inj ((exec_cmdWr_busy heng v).symm.trans h)
      exact exec_cmdWr_busy (s := { s with inputs := l }) heng v
  | ckPushw v =>
    obtain rfl := Host.Outcome.next.inj h
    rw [exec_ckPushw, State.dropPending_withInputs]
    rfl
  | ckPushb v =>
    obtain rfl := Host.Outcome.next.inj h
    rw [exec_ckPushb, State.pushLane_withInputs]
    rfl
  | ckClear v =>
    rw [exec_ckClear] at h ⊢
    obtain rfl := Host.Outcome.next.inj h
    cases v.getLsbD 0 <;> rfl
  | _ =>
    obtain rfl := Host.Outcome.next.inj h
    rfl

/-- A turn on the event e is the step of an input list that begins with e, whatever follows it there. -/
theorem step_of_stepOn {e : Event} {s t : State} (h : stepOn e s = .next t) (l : List Event) :
    step { s with inputs := e :: l } = .next { t with inputs := l } := by
  cases e with
  | ht a =>
    have hexec : exec (decodeHT a) s = .next t :=
      (step_ht (s := { s with inputs := .ht a :: s.inputs }) rfl).symm.trans h
    exact (step_ht rfl).trans (exec_withInputs hexec l)
  | rst =>
    obtain rfl := Host.Outcome.next.inj h
    rfl
  | engine =>
    rcases State.idle_or_busy s with heng | heng
    · have hpass : stepOn .engine s = .next s :=
        step_engine_idle (s := { s with inputs := .engine :: s.inputs }) rfl heng
      obtain rfl := Host.Outcome.next.inj (hpass.symm.trans h)
      exact step_engine_idle (s := { s with inputs := .engine :: l }) rfl heng
    · have hexec : exec (decodeCW s.pend) s = .next t :=
        (step_engine_busy (s := { s with inputs := .engine :: s.inputs }) rfl heng).symm.trans h
      exact (step_engine_busy (s := { s with inputs := .engine :: l }) rfl heng).trans (exec_withInputs hexec l)

theorem stepOn_inputs {e : Event} {s t : State} (h : stepOn e s = .next t) : t.inputs = s.inputs := by
  have hsame : t = { t with inputs := s.inputs } :=
    Host.Outcome.next.inj (h.symm.trans (step_of_stepOn h s.inputs))
  rw [hsame]

theorem runInput_inputs {input : InfiniteInput} {s : State} :
    ∀ {k : Nat} {t : State}, runInput input k s = .next t → t.inputs = s.inputs
  | 0, _, h => congrArg State.inputs (Host.Outcome.next.inj h).symm
  | k + 1, _, h => by
    obtain ⟨u, hu⟩ := exists_runInput_eq_next input s k
    exact (stepOn_inputs ((runInput_succ hu).symm.trans h)).trans (runInput_inputs hu)

/-- The first k turns of an infinite input take k events off any list that begins with them. -/
theorem runSteps_of_runInput {input : InfiniteInput} {s : State} :
    ∀ {k : Nat} {t : State}, runInput input k s = .next t → ∀ l : List Event,
      runSteps k { s with inputs := (List.range k).map input ++ l } = .next { t with inputs := l }
  | 0, _, h, l => by
    obtain rfl := Host.Outcome.next.inj h
    rfl
  | k + 1, t, h, l => by
    obtain ⟨u, hu⟩ := exists_runInput_eq_next input s k
    have hturn : stepOn (input k) u = .next t := (runInput_succ hu).symm.trans h
    rw [List.range_succ, List.map_append, List.append_assoc]
    exact (runSteps_succ_last (runSteps_of_runInput hu (input k :: l))).trans (step_of_stepOn hturn l)

/-- Settles O11: both runs answer the same state, and the infinite input leaves the state's own list as it was. -/
theorem infiniteInputRunsAsItsBeginnings : Obligations.InfiniteInputRunsAsItsBeginnings := by
  intro input k s
  obtain ⟨t, ht⟩ := exists_runInput_eq_next input s k
  rw [runSteps_of_runInput ht, ht, ← runInput_inputs ht]

/-! ### One equation per register operation -/

theorem exec_cmdRd (s : State) : exec .cmdRd s = .next (s.readOkay 0) := rfl

theorem exec_ctrlRd (s : State) : exec .ctrlRd s = .next (s.readOkay (ctrlWord s)) := rfl

theorem exec_ctrlWr (v : Word) (s : State) :
    exec (.ctrlWr v) s = .next { s with ie := v.getLsbD 0, response := some .written } := rfl

theorem exec_idRd (s : State) : exec .idRd s = .next (s.readOkay 0x45530100) := rfl

theorem exec_idWr (v : Word) (s : State) : exec (.idWr v) s = .next s.writeOkay := rfl

theorem exec_ckWoRd (k : Fin 3) (s : State) : exec (.ckWoRd k) s = .next (s.readOkay 0) := rfl

theorem exec_ckRoWr (k : Fin 3) (v : Word) (s : State) : exec (.ckRoWr k v) s = .next s.writeOkay := rfl

theorem exec_rsvRd (o : BitVec 6) (s : State) : exec (.rsvRd o) s = .next (s.readOkay 0) := rfl

theorem exec_rsvWr (o : BitVec 6) (v : Word) (s : State) : exec (.rsvWr o v) s = .next s.writeOkay := rfl

/-! ### The words and decodes they need -/

theorem ctrlWord_eq_ite (s : State) : ctrlWord s = if s.ie = true then 1 else 0 := by
  cases h : s.ie <;> simp [ctrlWord, flagBit, h]

/-- The offsets from 0x5C on are the reserved ones (R193). -/
theorem reservedIndex_iff (o : BitVec 6) : reservedIndex o = true ↔ 0x5C ≤ 4 * o.toNat := by
  rw [reservedIndex, decide_eq_true_iff]
  omega

/-- An admitted read decodes to the read of its register, whatever stands on WDATA. -/
theorem decodeHT_read_reg (r : Reg) (x : Word) :
    decodeHT ⟨.read, 2, r.index ++ (0 : BitVec 2), x⟩ = readOp (regOfIndex r.index) := by
  rw [decodeHT_read (Reg.off_aligned r), Reg.off_index]

theorem decodeHT_read_reserved {o : BitVec 6} (h : reservedIndex o = true) (x : Word) :
    decodeHT ⟨.read, 2, o ++ (0 : BitVec 2), x⟩ = .rsvRd o :=
  (decodeHT_read_reg (.reserved o) x).trans (by rw [Reg.index, regOfIndex_of_reservedIndex h, readOp])

theorem decodeHT_writeHT_reserved {o : BitVec 6} (h : reservedIndex o = true) (v : Word) :
    decodeHT (writeHT (.reserved o) v) = .rsvWr o v := by
  rw [decodeHT_writeHT, Reg.index, regOfIndex_of_reservedIndex h, writeOp]

/-! ### The obligations -/

/-- Settles O22, by the decode and the equation of each read. -/
theorem constantAndControlReads : Obligations.ConstantAndControlReads := by
  refine fun x s => ⟨⟨decodeHT_read_reg .cmd x, exec_cmdRd s⟩, ⟨decodeHT_read_reg .ctrl x, ?_⟩,
    ⟨decodeHT_read_reg .id x, exec_idRd s⟩,
    ⟨decodeHT_read_reg .ckPushw x, decodeHT_read_reg .ckPushb x, decodeHT_read_reg .ckCtrl x, fun k => exec_ckWoRd k s⟩⟩
  rw [exec_ctrlRd, ctrlWord_eq_ite]
  rfl

/-- Settles O25: IRQ is IE and DONE, and the write sets IE alone. -/
theorem ctrlWriteSetsInterruptEnable : Obligations.CtrlWriteSetsInterruptEnable :=
  fun v s => ⟨decodeHT_writeHT .ctrl v, _, exec_ctrlWr v s, rfl, rfl⟩

/-- Settles O26, by the decode and the equation of each write. -/
theorem readOnlyWritesIgnored : Obligations.ReadOnlyWritesIgnored := fun v s =>
  ⟨⟨decodeHT_writeHT .id v, exec_idWr v s⟩,
    ⟨decodeHT_writeHT .ckSum v, decodeHT_writeHT .ckCarry v, decodeHT_writeHT .ckResult v, fun k => exec_ckRoWr k v s⟩⟩

/-- Settles O27: the offsets are those of the reserved indices, and each access has its equation. -/
theorem reservedOffsetsReadZeroIgnoreWrites : Obligations.ReservedOffsetsReadZeroIgnoreWrites := fun o v x s =>
  ⟨fun ho =>
    have hres : reservedIndex o = true := (reservedIndex_iff o).mpr ho
    ⟨decodeHT_read_reserved hres x, decodeHT_writeHT_reserved hres v⟩,
    exec_rsvRd o s, exec_rsvWr o v s⟩

end Sys2Proof.Machine
end

section
/-! The exceptional host accesses (60_exceptions.md): a malformed access is a BusError that leaves the state (R214), and
a SECBUF or CMD write while BUSY is dropped without a trace but OVR, so the running command completes as without it
(R215). -/

namespace Sys2Proof.Machine

/-! ### The malformed access (R214) -/

/-- The check of R214 in numbers: another size than 4 bytes, or an offset that is no multiple of 4. -/
theorem malformedAccess_iff (size : BitVec 2) (off : BitVec 8) :
    malformedAccess size off = true ↔ size.toNat ≠ 2 ∨ off.toNat % 4 ≠ 0 := by
  have hsize : size ≠ 2 ↔ size.toNat ≠ 2 := BitVec.toNat_inj.symm.not
  have hoff : off.extractLsb' 0 2 ≠ 0 ↔ off.toNat % 4 ≠ 0 :=
    BitVec.toNat_inj.symm.not.trans (by rw [BitVec.extractLsb'_toNat]; rfl)
  rw [malformedAccess, Bool.or_eq_true, bne_iff_ne, bne_iff_ne, hsize, hoff]

theorem exec_buserr (dir : Dir) (size : BitVec 2) (off : BitVec 8) (s : State) :
    exec (.buserr dir size off) s = .next (s.busError off) := rfl

/-- Settles O28: the check in numbers is the decoder's, and a BusError sets the response alone. -/
theorem malformedAccessIsBusError : Obligations.MalformedAccessIsBusError := fun t s =>
  ⟨fun h => decodeHT_of_malformedAccess ((malformedAccess_iff t.size t.off).mpr h),
    exec_buserr t.dir t.size t.off s⟩

/-! ### The write dropped while BUSY (R215) -/

/-- A dropped write raises no interrupt: IRQ reads IE and DONE. -/
@[simp] theorem State.irq_dropWrite (s : State) : s.dropWrite.irq = s.irq := rfl

/-- A completion neither reads nor writes what a dropped write sets. -/
theorem State.complete_dropWrite (s : State) (m : Memory) (e : ErrCode) (g : Option Gen) :
    { s.dropWrite with secbuf := m }.complete e g = ({ s with secbuf := m }.complete e g).dropWrite := rfl

/-- A dropped write leaves the running command its outcome, which depends on the word, SECBUF and KEYROM alone. -/
theorem exec_decodeCW_dropWrite {w : Word} {s t : State} (h : exec (decodeCW w) s = .next t) :
    exec (decodeCW w) s.dropWrite = .next t.dropWrite := by
  rw [exec_decodeCW] at h ⊢
  obtain rfl := Host.Outcome.next.inj h
  exact congrArg Host.Outcome.next (State.complete_dropWrite s _ _ _)

/-- Settles O19: both writes are `dropWrite` while BUSY, and `dropWrite` commutes with the completion. -/
theorem busyWritesAreDropped : Obligations.BusyWritesAreDropped := fun i v s hbusy =>
  have hcomplete := exec_decodeCW s.pend s
  ⟨exec_secbufWr_busy hbusy i v, exec_cmdWr_busy hbusy v, s.irq_dropWrite,
    _, hcomplete, exec_decodeCW_dropWrite hcomplete⟩

end Sys2Proof.Machine
end

section
/-! The reset event and the root keys (70_reset_and_hazards.md section 1): no step writes KEYROM (R243); an RST event gives
the reset state, whether or not a command was in flight (R240, R242), and leaves the block ready for a command or a
checksum push (R241). -/

namespace Sys2Proof.Machine

/-! ### KEYROM (R243) -/

/-- No host transaction writes KEYROM (42_host_registers.md R196). -/
theorem exec_decodeHT_keyrom {h : HT} {s t : State} (ht : exec (decodeHT h) s = .next t) : t.keyrom = s.keyrom := by
  rcases exec_decodeHT_cases h s with ⟨r, he⟩ | ⟨-, -, he⟩ | ⟨-, i, v, -, he⟩ | ⟨-, v, -, he⟩ | ⟨v, -, he⟩ |
    ⟨v, -, he⟩ | ⟨v, -, he⟩ | ⟨v, -, he⟩ | ⟨v, -, he⟩ | ⟨v, -, he⟩
  all_goals
    obtain rfl := Host.Outcome.next.inj (he.symm.trans ht)
    simp [apply_ite State.keyrom]

/-- No completion writes KEYROM: it is no part of the record R140. -/
theorem exec_decodeCW_keyrom {w : Word} {s t : State} (ht : exec (decodeCW w) s = .next t) : t.keyrom = s.keyrom := by
  obtain rfl := Host.Outcome.next.inj ((exec_decodeCW w s).symm.trans ht)
  exact State.complete_keyrom _ _ _

/-- Settles O57, by the turns of `step_cases`: neither taking an input nor what the turn then does writes KEYROM. -/
theorem keyromIsImmutable : Obligations.KeyromIsImmutable := by
  intro s t ht
  rcases step_cases s with ⟨h, rest, -, hs⟩ | ⟨rest, -, hs⟩ | ⟨rest, -, -, hs⟩ | ⟨rest, -, -, hs⟩
  · exact exec_decodeHT_keyrom (s := { s with inputs := rest }) (hs.symm.trans ht)
  · obtain rfl := Host.Outcome.next.inj (hs.symm.trans ht)
    exact State.resetEvent_keyrom _
  · exact exec_decodeCW_keyrom (s := { s with inputs := rest }) (hs.symm.trans ht)
  · obtain rfl := Host.Outcome.next.inj (hs.symm.trans ht)
    rfl

/-! ### The RST event (R240 to R242) -/

/-- After a reset event IRQ is low, since DONE and IE are cleared (R241). -/
@[simp] theorem State.irq_resetEvent (s : State) : s.resetEvent.irq = false := rfl

/-- Settles O14: the RST turn is `State.resetEvent`, which reads KEYROM, the input and the draw counter alone. -/
theorem resetEventAbortsAndRestores : Obligations.ResetEventAbortsAndRestores := fun _ _ hin =>
  ⟨_, step_rst hin, ⟨_, _, rfl⟩, Memory.read_nil, State.resetEvent_done _, State.resetEvent_err _,
    State.irq_resetEvent _, State.resetEvent_scr _⟩

/-- The first word into an empty accumulator is its sum, without a carry (40_checksum.md R100). -/
theorem ckAcc_zero_zero (w : Word) : ckAcc 0 0 w = (w, 0) := by
  have hcarry : ¬2 ^ 32 ≤ (0 : Word).toNat + w.toNat := by bv_omega
  rw [ckAcc_eq, if_neg hcarry, zero_add]

/-- CK_SUM and CK_CARRY after a word push on an empty accumulator (R105). -/
theorem exec_ckPushw_of_empty {s : State} (hsum : s.ckSum = 0) (hcarry : s.ckCarry = 0) (v : Word) :
    ∃ t, exec (.ckPushw v) s = .next t ∧ t.ckSum = v ∧ t.ckCarry = 0 := by
  have hacc : ckAcc s.dropPending.ckSum s.dropPending.ckCarry v = (v, 0) := by
    rw [State.dropPending_ckSum, State.dropPending_ckCarry, hsum, hcarry, ckAcc_zero_zero]
  exact ⟨_, exec_ckPushw v s, congrArg Prod.fst hacc, congrArg Prod.snd hacc⟩

/-- CK_BCNT after a byte push on an empty lane (R106). -/
theorem exec_ckPushb_of_empty {s : State} (hcount : s.ckBcnt = 0) (v : Word) :
    ∃ t, exec (.ckPushb v) s = .next t ∧ t.ckBcnt = 1 :=
  ⟨_, exec_ckPushb v s, by rw [State.pushLane_of_ckBcnt_zero hcount]; rfl⟩

/-- Settles O15: the reset event leaves the ENGINE idle, the accumulator empty and the lane empty. -/
theorem readyAfterResetEvent : Obligations.ReadyAfterResetEvent := fun s v =>
  have hidle : s.resetEvent.eng = .idle := s.resetEvent_eng
  ⟨hidle, s.resetEvent_ie, s.irq_resetEvent,
    ⟨_, exec_cmdWr_idle hidle v, State.accept_eng s.resetEvent v, State.accept_pend s.resetEvent v⟩,
    exec_ckPushw_of_empty s.resetEvent_ckSum s.resetEvent_ckCarry v,
    exec_ckPushb_of_empty s.resetEvent_ckBcnt v⟩

end Sys2Proof.Machine
end

section
/-! Decoder and encoder agree (30_encoding.md R81 to R88). Both ways are said once of a code: the code of a well-formed
instruction decodes as the instruction, and what a word or a transaction decodes to is well-formed and has it as code.
So `decodeCW w = i` exactly when i is a well-formed instruction with the code w, which gives the rows in numbers. -/

namespace Sys2Proof

open Machine

/-- The instruction a code decodes to (30_encoding.md R80). -/
def Code.decode : Code → Instr
  | .cw w => decodeCW w
  | .ht t => decodeHT t

/-- The bytes of a code decode as the code does (log entry 9). -/
theorem decodeBytes_bytes (c : Code) : decodeBytes c.bytes = .ok c.decode := by
  cases c with
  | cw w => exact decodeBytes_cw w
  | ht t => exact decodeBytes_ht t

/-! ### From the instruction to its code and back -/

/-- The registers of the window (10_state.md R23): a reserved one has a reserved offset (R193). -/
def Reg.wf : Reg → Bool
  | .reserved o => reservedIndex o
  | _ => true

theorem regOfIndex_index {r : Reg} (h : r.wf = true) : regOfIndex r.index = r := by
  cases r with
  | secbufW i => exact regOfIndex_index_secbufW i
  | reserved o => exact regOfIndex_of_reservedIndex h
  | _ => rfl

theorem decodeHT_readHT_of_wf {r : Reg} (h : r.wf = true) : decodeHT (readHT r) = readOp r := by
  rw [decodeHT_readHT, regOfIndex_index h]

theorem decodeHT_writeHT_of_wf {r : Reg} (h : r.wf = true) (v : Word) : decodeHT (writeHT r v) = writeOp v r := by
  rw [decodeHT_writeHT, regOfIndex_index h]

theorem woPort_wf (k : Fin 3) : (woPort k).wf = true := by
  fin_cases k <;> rfl

theorem roReg_wf (k : Fin 3) : (roReg k).wf = true := by
  fin_cases k <;> rfl

theorem readOp_woPort (k : Fin 3) : readOp (woPort k) = .ckWoRd k := by
  fin_cases k <;> rfl

theorem writeOp_roReg (k : Fin 3) (v : Word) : writeOp v (roReg k) = .ckRoWr k v := by
  fin_cases k <;> rfl

/-- The code of a well-formed instruction decodes as the instruction. -/
theorem Instr.decode_code {i : Instr} (h : i.wf = true) : i.code.decode = i := by
  cases i with
  | decrypt => exact decodeCW_cwWord_decrypt
  | encrypt g => exact decodeCW_cwWord_encrypt g
  | encryptBadgen gen => exact decodeCW_cwWord_badGenCode h
  | illegal w => exact decodeCW_of_illegalWord h
  | secbufWr k v => exact decodeHT_writeHT_of_wf (r := .secbufW k) rfl v
  | secbufRd k => exact decodeHT_readHT_of_wf (r := .secbufW k) rfl
  | cmdWr v => exact decodeHT_writeHT_of_wf (r := .cmd) rfl v
  | cmdRd => exact decodeHT_readHT_of_wf (r := .cmd) rfl
  | statusRd => exact decodeHT_readHT_of_wf (r := .status) rfl
  | statusWr v => exact decodeHT_writeHT_of_wf (r := .status) rfl v
  | ctrlRd => exact decodeHT_readHT_of_wf (r := .ctrl) rfl
  | ctrlWr v => exact decodeHT_writeHT_of_wf (r := .ctrl) rfl v
  | idRd => exact decodeHT_readHT_of_wf (r := .id) rfl
  | idWr v => exact decodeHT_writeHT_of_wf (r := .id) rfl v
  | ckPushw v => exact decodeHT_writeHT_of_wf (r := .ckPushw) rfl v
  | ckPushb v => exact decodeHT_writeHT_of_wf (r := .ckPushb) rfl v
  | ckClear v => exact decodeHT_writeHT_of_wf (r := .ckCtrl) rfl v
  | ckWoRd k => exact (decodeHT_readHT_of_wf (woPort_wf k)).trans (readOp_woPort k)
  | ckStatRd => exact decodeHT_readHT_of_wf (r := .ckStat) rfl
  | ckStatWr v => exact decodeHT_writeHT_of_wf (r := .ckStat) rfl v
  | ckSumRd => exact decodeHT_readHT_of_wf (r := .ckSum) rfl
  | ckCarryRd => exact decodeHT_readHT_of_wf (r := .ckCarry) rfl
  | ckResultRd => exact decodeHT_readHT_of_wf (r := .ckResult) rfl
  | ckRoWr k v => exact (decodeHT_writeHT_of_wf (roReg_wf k) v).trans (writeOp_roReg k v)
  | rsvRd o => exact decodeHT_readHT_of_wf (r := .reserved o) h
  | rsvWr o v => exact decodeHT_writeHT_of_wf (r := .reserved o) h v
  | buserr dir size off => exact decodeHT_of_malformedAccess h

/-- Settles O1: the bytes decode as the code, and the code as the instruction. -/
theorem decodeOfEncodeIsIdentity : Obligations.DecodeOfEncodeIsIdentity := fun i h => by
  rw [encode, decodeBytes_bytes, Instr.decode_code h]

/-! ### From a transaction to its instruction and back (R82) -/

theorem regOfIndex_wf (o : BitVec 6) : (regOfIndex o).wf = true :=
  (by decide : ∀ o : BitVec 6, (regOfIndex o).wf = true) o

theorem index_regOfIndex (o : BitVec 6) : (regOfIndex o).index = o :=
  (by decide : ∀ o : BitVec 6, (regOfIndex o).index = o) o

theorem readOp_wf (r : Reg) : (readOp r).wf = r.wf := by
  cases r <;> rfl

theorem writeOp_wf (v : Word) (r : Reg) : (writeOp v r).wf = r.wf := by
  cases r <;> rfl

theorem readOp_code (r : Reg) : (readOp r).code = .ht (readHT r) := by
  cases r <;> rfl

theorem writeOp_code (v : Word) (r : Reg) : (writeOp v r).code = .ht (writeHT r v) := by
  cases r <;> rfl

/-- An aligned offset is the offset of the register it selects. -/
theorem regOfIndex_off {off : BitVec 8} (h : off.extractLsb' 0 2 = 0) :
    (regOfIndex (off.extractLsb' 2 6)).index ++ (0 : BitVec 2) = off := by
  rw [index_regOfIndex, ← h]
  exact (by decide : ∀ off : BitVec 8, off.extractLsb' 2 6 ++ off.extractLsb' 0 2 = off) off

theorem not_malformedAccess_iff {size : BitVec 2} {off : BitVec 8} :
    ¬malformedAccess size off = true ↔ size = 2 ∧ off.extractLsb' 0 2 = 0 := by
  simp [malformedAccess]

/-- Settles O2, by the cases of R82: a malformed access, and the admitted read and write of the register that the
offset selects. -/
theorem hostTransactionReencodes : Obligations.HostTransactionReencodes := by
  rintro ⟨dir, size, off, wdata⟩
  by_cases hbad : malformedAccess size off = true
  · have hzero : ¬(dir = .write ∧ size = 2 ∧ off.extractLsb' 0 2 = 0) := fun h => not_malformedAccess_iff.mpr h.2 hbad
    rw [decodeHT_of_malformedAccess hbad, if_neg hzero]
    exact ⟨hbad, rfl⟩
  · obtain ⟨rfl, halign⟩ := not_malformedAccess_iff.mp hbad
    cases dir with
    | read =>
      rw [decodeHT_read halign, readOp_wf, readOp_code, readHT, regOfIndex_off halign]
      exact ⟨regOfIndex_wf _, rfl⟩
    | write =>
      rw [decodeHT_write halign, writeOp_wf, writeOp_code, writeHT, regOfIndex_off halign, if_pos ⟨rfl, rfl, halign⟩]
      exact ⟨regOfIndex_wf _, rfl⟩

/-! ### From a command word to its instruction and back (R88) -/

/-- A command word of its fields, in numbers (R83). -/
theorem cwWord_toNat (gen op : BitVec 8) : (cwWord gen op).toNat = 256 * gen.toNat + op.toNat := by
  have hop := op.isLt
  have hhigh : ((0 : BitVec 16) ++ gen).toNat = gen.toNat := by
    rw [BitVec.toNat_append]
    exact (congrArg (· ||| gen.toNat) (Nat.zero_shiftLeft 8)).trans (Nat.zero_or _)
  rw [cwWord, BitVec.toNat_append, hhigh, Nat.shiftLeft_eq, Nat.mul_comm]
  exact (Nat.two_pow_add_eq_or_of_lt hop _).symm

/-- A word whose RSV field is zero is the word of its other fields. -/
theorem cwWord_of_cwRsv_eq_zero {w : Word} (h : cwRsv w = 0) : cwWord (cwGen w) (cwOp w) = w := by
  have hrsv : w.toNat / 2 ^ 16 % 2 ^ 16 = 0 := by
    simpa [cwRsv, BitVec.extractLsb'_toNat, Nat.shiftRight_eq_div_pow] using congrArg BitVec.toNat h
  have hlt := w.isLt
  apply BitVec.eq_of_toNat_eq
  rw [cwWord_toNat]
  simp only [cwGen, cwOp, BitVec.extractLsb'_toNat, Nat.shiftRight_eq_div_pow]
  omega

theorem code_of_genOfCode {c : BitVec 8} {g : Gen} (h : genOfCode c = some g) : BitVec.ofNat 8 g.code = c :=
  (by decide : ∀ c : BitVec 8, ∀ g, genOfCode c = some g → BitVec.ofNat 8 g.code = c) c g h

theorem badGenCode_of_genOfCode {c : BitVec 8} (h : genOfCode c = none) : badGenCode c = true :=
  (by decide : ∀ c : BitVec 8, genOfCode c = none → badGenCode c = true) c h

/-- Settles O3, by the tests of R88: an illegal word is its own operand, and any other has RSV = 0. -/
theorem commandWordReencodes : Obligations.CommandWordReencodes := by
  intro w
  by_cases hill : illegalWord w = true
  · rw [decodeCW_of_illegalWord hill]
    exact ⟨hill, rfl⟩
  · simp only [illegalWord_iff, not_or, not_and_or, not_not] at hill
    obtain ⟨hrsv, hop, hgen⟩ := hill
    have hw := cwWord_of_cwRsv_eq_zero hrsv
    by_cases hdec : cwOp w = 0x01
    · have hgen0 : cwGen w = 0 := hgen.resolve_left (not_not_intro hdec)
      rw [hdec, hgen0] at hw
      rw [← hw, decodeCW_cwWord_decrypt]
      exact ⟨rfl, rfl⟩
    · rw [hop.resolve_left hdec] at hw
      cases hg : genOfCode (cwGen w) with
      | some g =>
        rw [← code_of_genOfCode hg] at hw
        rw [← hw, decodeCW_cwWord_encrypt]
        exact ⟨rfl, rfl⟩
      | none =>
        have hbad := badGenCode_of_genOfCode hg
        rw [← hw, decodeCW_cwWord_badGenCode hbad]
        exact ⟨hbad, rfl⟩

/-- A command word decodes to the well-formed instruction whose code it is, and to no other. -/
theorem decodeCW_eq_iff {w : Word} {i : Instr} : decodeCW w = i ↔ i.wf = true ∧ i.code = .cw w := by
  constructor
  · rintro rfl
    exact commandWordReencodes w
  · rintro ⟨hwf, hcode⟩
    have hdecode := Instr.decode_code hwf
    rwa [hcode] at hdecode

theorem cw_cwWord_eq_iff {gen op : BitVec 8} {w : Word} :
    Code.cw (cwWord gen op) = .cw w ↔ w.toNat = 256 * gen.toNat + op.toNat := by
  rw [Code.cw.injEq, ← BitVec.toNat_inj, cwWord_toNat, eq_comm]

theorem badGenCode_iff (c : BitVec 8) : badGenCode c = true ↔ c.toNat = 0 ∨ 4 ≤ c.toNat :=
  (by decide : ∀ c : BitVec 8, badGenCode c = true ↔ c.toNat = 0 ∨ 4 ≤ c.toNat) c

/-- The words of 41_section_cipher.md R149, in numbers. -/
theorem illegalWord_iff_toNat (w : Word) : illegalWord w = true ↔
    2 ^ 16 ≤ w.toNat ∨ (w.toNat % 256 ≠ 1 ∧ w.toNat % 256 ≠ 2) ∨ (w.toNat % 256 = 1 ∧ w.toNat / 256 % 256 ≠ 0) := by
  have hlt := w.isLt
  rw [illegalWord_iff]
  simp only [ne_eq, ← BitVec.toNat_inj, cwRsv, cwOp, cwGen, BitVec.extractLsb'_toNat,
    BitVec.ofNat_eq_ofNat, BitVec.toNat_ofNat, Nat.shiftRight_eq_div_pow]
  omega

/-- Settles O4: each row's words are those of its fields, in numbers. -/
theorem commandWordCases : Obligations.CommandWordCases := by
  refine fun w => ⟨?_, fun g => ?_, fun c => ?_, ?_⟩ <;> rw [decodeCW_eq_iff]
  · exact (and_iff_right rfl).trans cw_cwWord_eq_iff
  · refine (and_iff_right rfl).trans (cw_cwWord_eq_iff.trans ?_)
    cases g <;> rfl
  · exact and_congr (badGenCode_iff c) cw_cwWord_eq_iff
  · exact (and_iff_left rfl).trans (illegalWord_iff_toNat w)

end Sys2Proof
end

section
/-! The machine's invariant (`State.Inv`): it holds at reset (10_state.md R45), and every step keeps it. Each operation
of the state keeps it by a rule of its own, and a step is one of those operations. -/

namespace Sys2Proof.Machine

/-! ### At reset (R45) -/

/-- Settles O8, by the values of R45. -/
theorem invariantAtReset : Obligations.InvariantAtReset where
  memory := State.reset_secbuf_wf
  busy h := nomatch h
  pend _ := rfl
  failed _ := rfl
  succeeded h := nomatch h
  lane := ⟨fun _ => rfl, fun _ => rfl, fun _ => rfl⟩
  hidden := ⟨rfl, rfl, rfl, rfl, rfl, rfl⟩

theorem rootKey_reset (g : Gen) : rootKey State.reset.keyrom g = (Config.rootKey g).toList := by
  cases g <;> rfl

/-- Settles O13, by the values of R45. -/
theorem resetLeavesStatedValues : Obligations.ResetLeavesStatedValues :=
  ⟨Memory.read_nil, rfl, rfl, rfl, rfl, rfl, rfl, rfl, rfl, rfl, rfl, rfl, rfl, rfl, rfl, rfl, rfl, rootKey_reset, rfl⟩

/-! ### One rule per operation of the state -/

namespace State.Inv

variable {s : State}

/-- The input is no part of the invariant. -/
theorem withInputs (h : s.Inv) (l : List Event) : ({ s with inputs := l } : State).Inv := { h with }

/-- The bus response is no part of the invariant. -/
theorem withResponse (h : s.Inv) (r : Option Response) : ({ s with response := r } : State).Inv := { h with }

theorem writeOkay (h : s.Inv) : s.writeOkay.Inv := h.withResponse _

theorem dropWrite (h : s.Inv) : s.dropWrite.Inv := { h with }

theorem withIe (h : s.Inv) (b : Bool) : ({ s with ie := b } : State).Inv := { h with }

theorem withCkDrop (h : s.Inv) (b : Bool) : ({ s with ckDrop := b } : State).Inv := { h with }

theorem setSecw (h : s.Inv) (i : Nat) (v : Word) : ({ s with secbuf := s.secbuf.setSecw i v } : State).Inv :=
  { h with memory := Memory.wf_setSecw h.memory i v }

/-- Acceptance clears DONE, ERR and RESGEN (41_section_cipher.md R135). -/
theorem accept (h : s.Inv) (v : Word) : (s.accept v).Inv :=
  { h with
    busy := fun _ => ⟨rfl, rfl, rfl⟩
    pend := fun hidle => nomatch hidle
    failed := fun _ => rfl
    succeeded := fun hdone => nomatch hdone }

/-- The acknowledgement can only clear DONE (42_host_registers.md R186). -/
theorem acknowledge (h : s.Inv) (v : Word) : (s.acknowledge v).Inv :=
  { h with
    busy := fun hb =>
      have ⟨hdone, houtcome⟩ := h.busy hb
      ⟨by rw [State.acknowledge_done, hdone, w1c, Bool.false_and], houtcome⟩
    succeeded := fun hdone => h.succeeded (Bool.and_eq_true_iff.mp hdone).1 }

theorem withLane (h : s.Inv) {l : ByteLane} {n : Fin 4}
    (hl : (n = 0 → l.b0 = 0) ∧ (n.val ≤ 1 → l.b1 = 0) ∧ (n.val ≤ 2 → l.b2 = 0)) :
    ({ s with ckBbuf := l, ckBcnt := n } : State).Inv := { h with lane := hl }

theorem emptyLane (h : s.Inv) : s.emptyLane.Inv := h.withLane ⟨fun _ => rfl, fun _ => rfl, fun _ => rfl⟩

theorem accumulate (h : s.Inv) (w : Word) : (s.accumulate w).Inv := { h with }

theorem clearChecksum (h : s.Inv) : s.clearChecksum.Inv := { h.emptyLane with }

theorem dropPending (h : s.Inv) : s.dropPending.Inv := by
  unfold State.dropPending
  split
  · exact h.emptyLane.withCkDrop true
  · exact h

/-- A pushed byte goes to the index CK_BCNT, which then counts it; the fourth empties the lane (40_checksum.md R106). -/
theorem pushLane (h : s.Inv) (b : Byte) : (s.pushLane b).Inv := by
  obtain ⟨-, hb1, hb2⟩ := h.lane
  unfold State.pushLane
  split <;> rename_i hcount <;> rw [hcount] at hb1 hb2
  · exact h.withLane (by simpa using ⟨hb1 (by decide), hb2 (by decide)⟩)
  · exact h.withLane (by simpa using hb2 (by decide))
  · exact h.withLane (by simp)
  · exact (h.accumulate _).emptyLane

/-- A completion idles, scrubs, and reports a generation exactly with OK (41_section_cipher.md R140, R141). -/
theorem complete {m : Memory} {e : ErrCode} {g : Option Gen} (h : s.Inv) (hm : m.wf = true)
    (hreport : e = .ok ↔ g ≠ none) : ({ s with secbuf := m }.complete e g).Inv :=
  { h with
    memory := hm
    busy := fun hb => nomatch hb
    pend := fun _ => rfl
    failed := fun he => not_not.mp fun hg => he (hreport.mpr hg)
    succeeded := fun _ he => hreport.mp he
    hidden := ⟨rfl, rfl, rfl, rfl, rfl, rfl⟩ }

end State.Inv

/-- An RST event gives the reset state but for what the invariant does not speak of. -/
theorem State.inv_resetEvent (s : State) : s.resetEvent.Inv := { invariantAtReset with }

/-! ### One step -/

theorem exec_decodeHT_keeps_inv {h : HT} {s t : State} (hinv : s.Inv) (ht : exec (decodeHT h) s = .next t) :
    t.Inv := by
  rcases exec_decodeHT_cases h s with ⟨r, he⟩ | ⟨-, -, he⟩ | ⟨-, i, v, -, he⟩ | ⟨-, v, -, he⟩ | ⟨v, -, he⟩ |
    ⟨v, -, he⟩ | ⟨v, -, he⟩ | ⟨v, -, he⟩ | ⟨v, -, he⟩ | ⟨v, -, he⟩
  all_goals obtain rfl := Host.Outcome.next.inj (he.symm.trans ht)
  · exact hinv.withResponse _
  · exact hinv.dropWrite
  · exact (hinv.setSecw i v).writeOkay
  · exact (hinv.accept v).writeOkay
  · exact (hinv.acknowledge v).writeOkay
  · exact (hinv.withIe _).writeOkay
  · exact (hinv.dropPending.accumulate v).writeOkay
  · exact (hinv.pushLane _).writeOkay
  · split
    · exact hinv.clearChecksum.writeOkay
    · exact hinv.writeOkay
  · exact (hinv.withCkDrop _).writeOkay

theorem exec_decodeCW_keeps_inv {w : Word} {s t : State} (hinv : s.Inv) (ht : exec (decodeCW w) s = .next t) :
    t.Inv := by
  obtain rfl := Host.Outcome.next.inj ((exec_decodeCW w s).symm.trans ht)
  rcases cwOutcome_cases w s.secbuf s.keyrom with ⟨g, out, ho⟩ | ⟨e, he, ho⟩
  all_goals rw [ho]
  · exact hinv.complete (Memory.wf_commit hinv.memory out) (by simp)
  · exact hinv.complete hinv.memory (by simp [he])

/-- Settles O9, by the turns of `step_cases`: a host transaction, an RST event, a completion, or a turn that passes. -/
theorem stepKeepsInvariant : Obligations.StepKeepsInvariant := by
  intro s t hinv ht
  rcases step_cases s with ⟨h, rest, -, hs⟩ | ⟨rest, -, hs⟩ | ⟨rest, -, -, hs⟩ | ⟨rest, -, -, hs⟩
  · exact exec_decodeHT_keeps_inv (hinv.withInputs rest) (hs.symm.trans ht)
  · obtain rfl := Host.Outcome.next.inj (hs.symm.trans ht)
    exact State.inv_resetEvent _
  · exact exec_decodeCW_keeps_inv (hinv.withInputs rest) (hs.symm.trans ht)
  · obtain rfl := Host.Outcome.next.inj (hs.symm.trans ht)
    exact hinv.withInputs rest

end Sys2Proof.Machine
end

section
/-! What no host access can see: the engine's hidden working state (10_state.md R40, R42), the keys (R43) and the
counter of the free values. Host accesses commute with any change of them, and a completion depends on none but the
keys; so the hidden state never influences a step (41_section_cipher.md R141). -/

namespace Sys2Proof.Machine

/-! ### The hidden working state -/

/-- The engine's hidden working state (R40, R42). -/
structure Work where
  scr : Bytes
  seed : Bytes
  ctag : Bytes
  attempt : Fin 4
  rc4 : Rc4

def State.work (s : State) : Work := ⟨s.scr, s.seed, s.ctag, s.attempt, ⟨s.rc4S, s.rc4I, s.rc4J⟩⟩

/-- A state with another hidden working state. -/
def State.withWork (s : State) (w : Work) : State :=
  { s with
    scr := w.scr
    seed := w.seed
    ctag := w.ctag
    attempt := w.attempt
    rc4S := w.rc4.s
    rc4I := w.rc4.i
    rc4J := w.rc4.j }

/-- A state with other values of all that no host access reads or writes. -/
def State.withUnread (s : State) (w : Work) (k : KeyRom) (n : Nat) : State :=
  { s.withWork w with keyrom := k, freeDraws := n }

section

variable (s : State) (w : Work) (k : KeyRom) (n : Nat)

theorem State.forgetHidden_withUnread :
    (s.withUnread w k n).forgetHidden = ({ s with keyrom := k } : State).forgetHidden := rfl

theorem State.dropPending_withUnread : (s.withUnread w k n).dropPending = s.dropPending.withUnread w k n := by
  rw [State.dropPending_eq, State.dropPending_eq]
  rfl

theorem State.pushLane_withUnread (b : Byte) :
    (s.withUnread w k n).pushLane b = (s.pushLane b).withUnread w k n := by
  unfold State.pushLane
  dsimp only [State.withUnread, State.withWork]
  split <;> rfl

end

/-- States that agree outside the hidden state differ in it and in the counter alone. -/
theorem State.eq_withUnread_of_forgetHidden_eq {s t : State} (h : s.forgetHidden = t.forgetHidden) :
    t = s.withUnread t.work s.keyrom t.freeDraws := by
  cases s
  cases t
  simp only [State.forgetHidden, State.mk.injEq] at h
  simp only [State.withUnread, State.withWork, State.work, h]

/-! ### Host accesses neither read nor write it -/

theorem exec_readOp_withUnread (r : Reg) {s t : State} (ht : exec (readOp r) s = .next t) (w : Work) (k : KeyRom)
    (n : Nat) : exec (readOp r) (s.withUnread w k n) = .next (t.withUnread w k n) := by
  cases r <;>
  · obtain rfl := Host.Outcome.next.inj ht
    rfl

theorem exec_writeOp_withUnread (v : Word) (r : Reg) {s t : State} (ht : exec (writeOp v r) s = .next t) (w : Work)
    (k : KeyRom) (n : Nat) : exec (writeOp v r) (s.withUnread w k n) = .next (t.withUnread w k n) := by
  cases r with
  | secbufW i =>
    rcases State.idle_or_busy s with heng | heng
    · obtain rfl := Host.Outcome.next.inj ((exec_secbufWr_idle heng i v).symm.trans ht)
      exact exec_secbufWr_idle (s := s.withUnread w k n) heng i v
    · obtain rfl := Host.Outcome.next.inj ((exec_secbufWr_busy heng i v).symm.trans ht)
      exact exec_secbufWr_busy (s := s.withUnread w k n) heng i v
  | cmd =>
    rcases State.idle_or_busy s with heng | heng
    · obtain rfl := Host.Outcome.next.inj ((exec_cmdWr_idle heng v).symm.trans ht)
      exact exec_cmdWr_idle (s := s.withUnread w k n) heng v
    · obtain rfl := Host.Outcome.next.inj ((exec_cmdWr_busy heng v).symm.trans ht)
      exact exec_cmdWr_busy (s := s.withUnread w k n) heng v
  | ckPushw =>
    obtain rfl := Host.Outcome.next.inj ht
    rw [writeOp, exec_ckPushw, State.dropPending_withUnread]
    rfl
  | ckPushb =>
    obtain rfl := Host.Outcome.next.inj ht
    rw [writeOp, exec_ckPushb, State.pushLane_withUnread]
    rfl
  | ckCtrl =>
    rw [writeOp, exec_ckClear] at ht ⊢
    obtain rfl := Host.Outcome.next.inj ht
    cases v.getLsbD 0 <;> rfl
  | _ =>
    obtain rfl := Host.Outcome.next.inj ht
    rfl

/-- No host transaction reads or writes the hidden state, the keys or the counter (10_state.md R42, R43). -/
theorem exec_decodeHT_withUnread {h : HT} {s t : State} (ht : exec (decodeHT h) s = .next t) (w : Work) (k : KeyRom)
    (n : Nat) : exec (decodeHT h) (s.withUnread w k n) = .next (t.withUnread w k n) := by
  rcases decodeHT_cases h with e | ⟨-, e⟩ | ⟨-, e⟩ <;> rw [e] at ht ⊢
  · obtain rfl := Host.Outcome.next.inj ht
    exact exec_buserr h.dir h.size h.off _
  · exact exec_readOp_withUnread _ ht w k n
  · exact exec_writeOp_withUnread _ _ ht w k n

/-- Settles O58: a host access commutes with a change of the keys alone, the hidden state and the counter kept. -/
theorem hostAccessesNeverReadKeys : Obligations.HostAccessesNeverReadKeys := by
  intro h k s
  obtain ⟨t, ht⟩ := exists_exec_decodeHT_eq_next h s
  have hkeep : t = t.withUnread s.work s.keyrom s.freeDraws :=
    Host.Outcome.next.inj (ht.symm.trans (exec_decodeHT_withUnread ht s.work s.keyrom s.freeDraws))
  refine ⟨t, ht, (exec_decodeHT_withUnread ht s.work k s.freeDraws).trans ?_⟩
  rw [hkeep]
  rfl

/-! ### No step depends on it -/

/-- The ENGINE's turn, given or taken when no input is left, with a command in flight: its completion
(41_section_cipher.md R136; log entry 6). -/
theorem step_of_busy {s : State} {rest : List Event} (hin : s.inputs = .engine :: rest ∨ (s.inputs = [] ∧ rest = []))
    (hbusy : s.eng = .busy) : step s = exec (decodeCW s.pend) { s with inputs := rest } := by
  rcases hin with hin | ⟨hin, rfl⟩
  · exact step_engine_busy hin hbusy
  · rw [← hin]
    exact step_nil_busy hin hbusy

/-- The ENGINE's turn, given or taken when no input is left, while it is idle: it passes (log entry 6). -/
theorem step_of_idle {s : State} {rest : List Event} (hin : s.inputs = .engine :: rest ∨ (s.inputs = [] ∧ rest = []))
    (hidle : s.eng = .idle) : step s = .next { s with inputs := rest } := by
  rcases hin with hin | ⟨hin, rfl⟩
  · exact step_engine_idle hin hidle
  · rw [← hin]
    exact step_nil_idle hin hidle

/-- Outside the hidden state, a completion depends on nothing hidden (R140, R141). -/
theorem exec_decodeCW_withUnread (c : Word) (s : State) (w : Work) (n : Nat) :
    ∃ t t', exec (decodeCW c) s = .next t ∧ exec (decodeCW c) (s.withUnread w s.keyrom n) = .next t' ∧
      t.forgetHidden = t'.forgetHidden :=
  ⟨_, _, exec_decodeCW c s, exec_decodeCW c _, rfl⟩

/-- A step from a state with another hidden state ends in the same state outside the hidden one. -/
theorem step_withUnread (s : State) (w : Work) (n : Nat) :
    ∃ t t', step s = .next t ∧ step (s.withUnread w s.keyrom n) = .next t' ∧ t.forgetHidden = t'.forgetHidden := by
  rcases step_cases s with ⟨h, rest, hin, hs⟩ | ⟨rest, hin, hs⟩ | ⟨rest, hin, heng, hs⟩ | ⟨rest, hin, heng, hs⟩
  · obtain ⟨t, ht⟩ := exists_exec_decodeHT_eq_next h { s with inputs := rest }
    have hkeys : t.keyrom = s.keyrom := exec_decodeHT_keyrom (s := { s with inputs := rest }) ht
    have hother : step (s.withUnread w s.keyrom n) = .next (t.withUnread w s.keyrom n) :=
      (step_ht (s := s.withUnread w s.keyrom n) hin).trans (exec_decodeHT_withUnread ht w s.keyrom n)
    refine ⟨t, _, hs.trans ht, hother, ?_⟩
    rw [State.forgetHidden_withUnread, ← hkeys]
  · exact ⟨_, _, hs, step_rst (s := s.withUnread w s.keyrom n) hin, rfl⟩
  · rw [hs, step_of_busy (s := s.withUnread w s.keyrom n) hin heng]
    exact exec_decodeCW_withUnread s.pend { s with inputs := rest } w n
  · exact ⟨_, _, hs, step_of_idle (s := s.withUnread w s.keyrom n) hin heng, rfl⟩

/-- The host's view reads nothing hidden. -/
theorem State.hostView_forgetHidden (s : State) : s.forgetHidden.hostView = s.hostView := rfl

/-- Settles O59: two states that agree outside the hidden state step alike outside it, and the host's view reads no
more. -/
theorem hiddenStateIsUnobservable : Obligations.HiddenStateIsUnobservable := by
  intro s t h
  obtain ⟨s', t', hs, ht, hagree⟩ := step_withUnread s t.work t.freeDraws
  rw [← State.eq_withUnread_of_forgetHidden_eq h] at ht
  exact ⟨s', t', hs, ht, hagree, by rw [← s'.hostView_forgetHidden, hagree, t'.hostView_forgetHidden]⟩

end Sys2Proof.Machine
end

section
/-! The host's accesses to SECBUF, STATUS and CMD (42_host_registers.md R181 to R186), each with its decode; that no
read has a side effect (20_memory.md R67). -/

namespace Sys2Proof.Machine

/-! ### SECBUF words (20_memory.md R61) -/

theorem decodeHT_write_secbufW (i : Fin 12) (v : Word) :
    decodeHT ⟨.write, 2, BitVec.ofNat 8 (4 * i.val), v⟩ = .secbufWr i v := by
  obtain ⟨hreg, halign⟩ := regOfIndex_secbufW i
  rw [decodeHT_write halign, hreg, writeOp]

theorem decodeHT_read_secbufW (i : Fin 12) (x : Word) :
    decodeHT ⟨.read, 2, BitVec.ofNat 8 (4 * i.val), x⟩ = .secbufRd i := by
  obtain ⟨hreg, halign⟩ := regOfIndex_secbufW i
  rw [decodeHT_read halign, hreg, readOp]

theorem exec_secbufRd (i : Fin 12) (s : State) : exec (.secbufRd i) s = .next (s.readOkay (s.secbuf.secw i.val)) := rfl

/-- The bytes of a word just written. -/
theorem Memory.read_setSecw_inside {m : Memory} (hm : m.wf = true) (i : Fin 12) (v : Word) {k : Nat} (hk : k < 4) :
    (m.setSecw i.val v).read (4 * i.val + k) = byteOf v k := by
  rw [Memory.read_setSecw hm i.isLt, if_pos (by omega), Nat.add_sub_cancel_left]

/-- A word write leaves the bytes of every other word. -/
theorem Memory.read_setSecw_outside {m : Memory} (hm : m.wf = true) (i : Fin 12) (v : Word) {a : Nat}
    (ha : a < 4 * i.val ∨ 4 * i.val + 4 ≤ a) : (m.setSecw i.val v).read a = m.read a := by
  rw [Memory.read_setSecw hm i.isLt, if_neg (by omega)]

/-- A word reads back as written, and every other word as before. -/
theorem Memory.secw_setSecw {m : Memory} (hm : m.wf = true) (i j : Fin 12) (v : Word) :
    (m.setSecw i.val v).secw j.val = if j = i then v else m.secw j.val := by
  split
  case isTrue hij =>
    subst hij
    have hread := fun k (hk : k < 4) => Memory.read_setSecw_inside hm j v hk
    rw [Memory.secw, hread 1 (by decide), hread 2 (by decide), hread 3 (by decide)]
    exact (congrArg (le32 · _ _ _) (hread 0 (by decide))).trans (le32_byteOf v)
  case isFalse hij =>
    have hne : j.val ≠ i.val := fun h => hij (Fin.ext h)
    have hread := fun k (hk : k < 4) =>
      Memory.read_setSecw_outside hm i v (a := 4 * j.val + k) (by omega)
    rw [Memory.secw, hread 1 (by decide), hread 2 (by decide), hread 3 (by decide)]
    exact congrArg (le32 · _ _ _) (hread 0 (by decide))

/-- Settles O16: the idle write is `Memory.setSecw`, whose bytes are the word's inside and the old ones outside. -/
theorem secbufWriteStoresFourBytes : Obligations.SecbufWriteStoresFourBytes := fun i v s hwf hidle =>
  ⟨decodeHT_write_secbufW i v, s.secbuf.setSecw i.val v, exec_secbufWr_idle hidle i v,
    fun _ hk => Memory.read_setSecw_inside hwf i v hk, fun _ ha => Memory.read_setSecw_outside hwf i v ha⟩

/-- Settles O17: the read answers `Memory.secw`, whose byte k is SECBUF[4i+k]. -/
theorem secbufReadReturnsFourBytes : Obligations.SecbufReadReturnsFourBytes := fun i x s =>
  ⟨decodeHT_read_secbufW i x, s.secbuf.secw i.val, exec_secbufRd i s,
    fun _ hk => Memory.byteOf_secw s.secbuf i.val hk⟩

/-- Settles O18: the write and the two reads by their equations, and the word read after the write by
`Memory.secw_setSecw`. -/
theorem secbufWordReadsBack : Obligations.SecbufWordReadsBack := fun i j v s hwf hidle =>
  ⟨_, _, s.secbuf.secw j.val, exec_secbufWr_idle hidle i v, exec_secbufRd j _, exec_secbufRd j s,
    congrArg (some ∘ Response.rdata) (Memory.secw_setSecw hwf i j v)⟩

/-! ### STATUS and CMD (R183 to R186) -/

theorem exec_statusRd (s : State) : exec .statusRd s = .next (s.readOkay (statusWord s)) := rfl

theorem resgenCode_lt (g : Option Gen) : resgenCode g < 4 := by
  rcases g with - | g
  · decide
  · cases g <;> decide

theorem ErrCode.code_lt (e : ErrCode) : e.code < 4 := by
  cases e <;> decide

/-- The fields of STATUS at their places (10_state.md R24), in numbers: they do not overlap. -/
theorem statusFields_toNat : ∀ (gen err : Fin 4) (ovr done busy : Bool),
    (BitVec.ofNat 32 gen.val <<< 8 ||| BitVec.ofNat 32 err.val <<< 4 ||| flagBit ovr 2 ||| flagBit done 1 |||
      flagBit busy 0).toNat =
    256 * gen.val + 16 * err.val + (if ovr = true then 4 else 0) + (if done = true then 2 else 0) +
      (if busy = true then 1 else 0) := by decide

theorem statusWord_toNat (s : State) : (statusWord s).toNat =
    256 * resgenCode s.resgen + 16 * s.err.code + (if s.ovr = true then 4 else 0) + (if s.done = true then 2 else 0) +
      (if s.eng = .busy then 1 else 0) := by
  simp only [← State.busy_iff]
  exact statusFields_toNat ⟨_, resgenCode_lt s.resgen⟩ ⟨_, s.err.code_lt⟩ s.ovr s.done s.busy

/-- Settles O23: the read answers `statusWord`. -/
theorem statusReadComposesFields : Obligations.StatusReadComposesFields := fun x s =>
  ⟨decodeHT_read_reg .status x, statusWord s, exec_statusRd s, statusWord_toNat s⟩

/-- Settles O24: DONE and OVR are W1C flags, and IRQ is IE and DONE. -/
theorem statusWriteAcknowledges : Obligations.StatusWriteAcknowledges := by
  refine fun v s => ⟨decodeHT_writeHT .status v, _, exec_statusWr v s, ?_, (Bool.and_assoc _ _ _).symm⟩
  rw [← w1c_eq_ite, ← w1c_eq_ite]
  rfl

/-- Settles O21: acceptance, which clears DONE, so IRQ is low. -/
theorem commandAcceptance : Obligations.CommandAcceptance := fun v s hidle =>
  ⟨decodeHT_writeHT .cmd v, _, exec_cmdWr_idle hidle v, rfl, Bool.and_false s.ie⟩

/-! ### Reads (20_memory.md R67) -/

/-- An admitted read changes the response alone. -/
theorem exec_readOp (r : Reg) (s : State) : ∃ a, exec (readOp r) s = .next { s with response := some a } := by
  cases r <;> exact ⟨_, rfl⟩

/-- Settles O29, by the two answers a read can have: a BusError, or the value of its register. -/
theorem noReadHasSideEffect : Obligations.NoReadHasSideEffect := by
  intro size off x s
  rcases decodeHT_cases ⟨.read, size, off, x⟩ with h | ⟨-, h⟩ | ⟨hdir, -⟩
  · exact ⟨.error off, by rw [h]; exact exec_buserr .read size off s⟩
  · rw [h]
    exact exec_readOp _ s
  · cases hdir

end Sys2Proof.Machine
end

section
/-! Rules of the whole machine: what a step runs and that it always answers; that a run consumes its input; which steps
change SECBUF and the outcome; and that host accesses neither touch nor delay the command in flight. -/

namespace Sys2Proof.Machine

/-! ### The step and its input -/

/-- Settles O6, by the rules of the step: the host's turn, the ENGINE's while busy and while idle, and the turn without
input. -/
theorem stepRunsDecodedInstruction : Obligations.StepRunsDecodedInstruction := by
  refine fun s i rest => ⟨?_, ?_, ?_, step_engine_idle, step_nil_idle⟩
  · rintro t hin rfl
    exact step_ht hin
  · rintro hin hbusy rfl
    exact step_engine_busy hin hbusy
  · rintro hin hbusy rfl
    exact step_nil_busy hin hbusy

/-- Settles O7, by the turns of `step_cases`. -/
theorem everyStepAnswersNext : Obligations.EveryStepAnswersNext := exists_step_eq_next

theorem exec_inputs {i : Instr} {s t : State} (h : exec i s = .next t) : t.inputs = s.inputs := by
  have hsame : t = { t with inputs := s.inputs } := Host.Outcome.next.inj (h.symm.trans (exec_withInputs h s.inputs))
  rw [hsame]

/-- A step takes the next element of the input, if there is one. -/
theorem step_inputs {s t : State} (ht : step s = .next t) : t.inputs = s.inputs.tail := by
  have tail_of : ∀ {rest : List Event}, (s.inputs = .engine :: rest ∨ (s.inputs = [] ∧ rest = [])) →
      s.inputs.tail = rest := by
    rintro rest (hin | ⟨hin, rfl⟩) <;> rw [hin] <;> rfl
  rcases step_cases s with ⟨h, rest, hin, hs⟩ | ⟨rest, hin, hs⟩ | ⟨rest, hin, -, hs⟩ | ⟨rest, hin, -, hs⟩
  · rw [exec_inputs (hs.symm.trans ht), hin, List.tail_cons]
  · obtain rfl := Host.Outcome.next.inj (hs.symm.trans ht)
    rw [hin, List.tail_cons, State.resetEvent_inputs]
  · rw [exec_inputs (hs.symm.trans ht), tail_of hin]
  · obtain rfl := Host.Outcome.next.inj (hs.symm.trans ht)
    exact (tail_of hin).symm

theorem exists_runSteps_eq_next : ∀ (k : Nat) (s : State), ∃ t, runSteps k s = .next t
  | 0, s => ⟨s, runSteps_zero s⟩
  | k + 1, s => by
    obtain ⟨t, ht⟩ := exists_step_eq_next s
    rw [runSteps_succ ht]
    exact exists_runSteps_eq_next k t

/-- A run of k steps takes the first k elements of the input. -/
theorem runSteps_inputs : ∀ {k : Nat} {s t : State}, runSteps k s = .next t → t.inputs = s.inputs.drop k
  | 0, s, t, h => by
    obtain rfl := Host.Outcome.next.inj h
    rfl
  | k + 1, s, t, h => by
    obtain ⟨u, hu⟩ := exists_step_eq_next s
    rw [runSteps_succ hu] at h
    rw [runSteps_inputs h, step_inputs hu, List.drop_tail]

/-- A step without input leaves no command in flight (log entry 6). -/
theorem step_nil_ends_idle {s : State} (hin : s.inputs = []) : ∃ t, step s = .next t ∧ t.eng = .idle := by
  rcases State.idle_or_busy s with heng | heng
  · exact ⟨s, step_nil_idle hin heng, heng⟩
  · exact ⟨_, (step_nil_busy hin heng).trans (exec_decodeCW s.pend s), State.complete_eng _ _ _⟩

/-- Settles O10: the steps take the whole input, and the one more, without input, leaves the ENGINE idle. -/
theorem everyRunQuiesces : Obligations.EveryRunQuiesces := by
  intro s
  obtain ⟨u, hu⟩ := exists_runSteps_eq_next s.inputs.length s
  have hin : u.inputs = [] := by rw [runSteps_inputs hu, List.drop_length]
  obtain ⟨t, ht, hidle⟩ := step_nil_ends_idle hin
  exact ⟨t, (runSteps_succ_last hu).trans ht, hidle, by rw [step_inputs ht, hin, List.tail_nil]⟩

/-! ### What a host transaction does to SECBUF and the command -/

/-- A host transaction leaves SECBUF, the command and its outcome, or it is a SECBUF or a CMD write made while idle. -/
theorem exec_decodeHT_command_cases {h : HT} {s t : State} (ht : exec (decodeHT h) s = .next t) :
    (t.secbuf = s.secbuf ∧ t.pend = s.pend ∧ t.eng = s.eng ∧ t.err = s.err ∧ t.resgen = s.resgen) ∨
      (s.eng = .idle ∧ ∃ i v, decodeHT h = .secbufWr i v ∧
        t = { s with secbuf := s.secbuf.setSecw i.val v }.writeOkay) ∨
      (s.eng = .idle ∧ ∃ v, decodeHT h = .cmdWr v ∧ t = (s.accept v).writeOkay) := by
  rcases exec_decodeHT_cases h s with ⟨r, he⟩ | ⟨-, -, he⟩ | ⟨hi, i, v, hd, he⟩ | ⟨hi, v, hd, he⟩ | ⟨v, -, he⟩ |
    ⟨v, -, he⟩ | ⟨v, -, he⟩ | ⟨v, -, he⟩ | ⟨v, -, he⟩ | ⟨v, -, he⟩
  all_goals have ht' := Host.Outcome.next.inj (ht.symm.trans he)
  case inr.inr.inl => exact .inr (.inl ⟨hi, i, v, hd, ht'⟩)
  case inr.inr.inr.inl => exact .inr (.inr ⟨hi, v, hd, ht'⟩)
  all_goals
    subst ht'
    exact .inl (by simp [apply_ite State.secbuf, apply_ite State.pend, apply_ite State.eng, apply_ite State.err,
      apply_ite State.resgen])

/-- Settles O20, by the turns of `step_cases`: of the host's only an idle SECBUF write, of the completions only one
with a commit. -/
theorem secbufWritersAreOnlyThese : Obligations.SecbufWritersAreOnlyThese := by
  intro s t ht hne
  rcases step_cases s with ⟨h, rest, hin, hs⟩ | ⟨rest, hin, -⟩ | ⟨rest, -, heng, hs⟩ | ⟨rest, -, -, hs⟩
  · rcases exec_decodeHT_command_cases (hs.symm.trans ht) with ⟨hsame, -⟩ | ⟨hidle, i, v, hd, -⟩ | ⟨-, v, -, rfl⟩
    · exact absurd hsame hne
    · exact .inl ⟨h, rest, i, v, hin, hd, hidle⟩
    · exact absurd rfl hne
  · exact .inr (.inr ⟨rest, hin⟩)
  · obtain rfl := Host.Outcome.next.inj ((exec_decodeCW _ _).symm.trans (hs.symm.trans ht))
    rcases cwOutcome_cases s.pend s.secbuf s.keyrom with ⟨g, out, ho⟩ | ⟨e, -, ho⟩ <;> rw [ho] at hne ⊢
    · exact .inr (.inl ⟨heng, rfl, rfl, rfl, Option.some_ne_none g⟩)
    · exact absurd rfl hne
  · obtain rfl := Host.Outcome.next.inj (hs.symm.trans ht)
    exact absurd rfl hne

/-- Settles O56, by the turns of `step_cases`: of an idle block's turns only a CMD write and an RST event write the
outcome. -/
theorem outcomeStableUntilAcceptance : Obligations.OutcomeStableUntilAcceptance := by
  intro s t hidle ht
  rcases step_cases s with ⟨h, rest, hin, hs⟩ | ⟨rest, hin, -⟩ | ⟨rest, -, hbusy, -⟩ | ⟨rest, -, -, hs⟩
  · rcases exec_decodeHT_command_cases (hs.symm.trans ht) with ⟨-, -, -, hout⟩ | ⟨-, i, v, -, rfl⟩ | ⟨-, v, hd, -⟩
    · exact .inl hout
    · exact .inl ⟨rfl, rfl⟩
    · exact .inr (.inr ⟨h, rest, v, hin, hd⟩)
  · exact .inr (.inl ⟨rest, hin⟩)
  · exact absurd (hidle.symm.trans hbusy) (by decide)
  · obtain rfl := Host.Outcome.next.inj (hs.symm.trans ht)
    exact .inl ⟨rfl, rfl⟩

/-! ### The command in flight -/

/-- While BUSY no host transaction changes what a completion reads or records. -/
theorem exec_decodeHT_of_busy {h : HT} {s t : State} (hbusy : s.eng = .busy) (ht : exec (decodeHT h) s = .next t) :
    t.secbuf = s.secbuf ∧ t.pend = s.pend ∧ t.eng = .busy ∧ t.err = s.err ∧ t.resgen = s.resgen := by
  rcases exec_decodeHT_command_cases ht with hsame | ⟨hidle, -⟩ | ⟨hidle, -⟩
  · rwa [hbusy] at hsame
  · exact absurd (hidle.symm.trans hbusy) (by decide)
  · exact absurd (hidle.symm.trans hbusy) (by decide)

/-- Settles O50: the command's part by `exec_decodeHT_of_busy`, KEYROM in every phase. -/
theorem hostCannotTouchCommandInFlight : Obligations.HostCannotTouchCommandInFlight := by
  intro h s hbusy
  obtain ⟨t, ht⟩ := exists_exec_decodeHT_eq_next h s
  obtain ⟨hsec, hpend, heng, herr, hgen⟩ := exec_decodeHT_of_busy hbusy ht
  exact ⟨t, ht, hsec, hpend, heng, herr, hgen, exec_decodeHT_keyrom ht⟩

/-- Any number of host transactions leave a command in flight what its completion reads. -/
theorem runSteps_hosts_of_busy : ∀ {hts : List HT} {l : List Event} {s : State}, s.eng = .busy →
    s.inputs = hts.map Event.ht ++ l →
    ∃ t, runSteps hts.length s = .next t ∧ t.eng = .busy ∧ t.pend = s.pend ∧ t.secbuf = s.secbuf ∧
      t.keyrom = s.keyrom ∧ t.inputs = l
  | [], _, s, hbusy, hin => ⟨s, rfl, hbusy, rfl, rfl, rfl, hin⟩
  | h :: hts, l, s, hbusy, hin => by
    obtain ⟨u, hu⟩ := exists_exec_decodeHT_eq_next h { s with inputs := hts.map Event.ht ++ l }
    obtain ⟨hsec, hpend, heng, -⟩ := exec_decodeHT_of_busy (s := { s with inputs := hts.map Event.ht ++ l }) hbusy hu
    obtain ⟨t, ht, hbusy', hpend', hsec', hkeys', hin'⟩ := runSteps_hosts_of_busy heng (exec_inputs hu)
    have hkeys : u.keyrom = s.keyrom := exec_decodeHT_keyrom (s := { s with inputs := hts.map Event.ht ++ l }) hu
    exact ⟨t, (runSteps_succ ((step_ht hin).trans hu) _).trans ht, hbusy', hpend'.trans hpend, hsec'.trans hsec,
      hkeys'.trans hkeys, hin'⟩

/-- Settles O51: the accesses leave PEND, SECBUF and KEYROM, on which alone the outcome depends. -/
theorem outcomeIndependentOfInterleaving : Obligations.OutcomeIndependentOfInterleaving := by
  intro hts rest s hbusy hin
  obtain ⟨u, hu, hbusy', hpend, hsec, hkeys, hin'⟩ := runSteps_hosts_of_busy hbusy hin
  have hlast : runSteps (hts.length + 1) s = exec (decodeCW s.pend) { u with inputs := rest } := by
    rw [runSteps_succ_last hu, step_engine_busy hin' hbusy', hpend]
  refine ⟨_, _, hlast.trans (exec_decodeCW _ _), exec_decodeCW _ _, ?_⟩
  simp [hsec, hkeys]

/-- The host's turn runs its decoded transaction, and leaves the input after it. -/
theorem step_ht_of_exec {h : HT} {i : Instr} {rest : List Event} {s t : State} (hd : decodeHT h = i)
    (ht : exec i s = .next t) : step { s with inputs := .ht h :: rest } = .next { t with inputs := rest } := by
  subst hd
  exact (step_ht rfl).trans (exec_withInputs ht rest)

/-- The ENGINE's turn completes the command in flight, and leaves the input after it. -/
theorem step_engine_of_exec {rest : List Event} {s t : State} (hbusy : s.eng = .busy)
    (ht : exec (decodeCW s.pend) s = .next t) :
    step { s with inputs := .engine :: rest } = .next { t with inputs := rest } :=
  (step_engine_busy (s := { s with inputs := .engine :: rest }) rfl hbusy).trans (exec_withInputs ht rest)

theorem runSteps_two {s t u : State} (ht : step s = .next t) (hu : step t = .next u) : runSteps 2 s = .next u := by
  rw [runSteps_succ ht, runSteps_succ hu, runSteps_zero]

/-- A write that is dropped while BUSY, and the completion after it (60_exceptions.md R219). -/
theorem runSteps_drop_complete {h : HT} {i : Instr} {rest : List Event} {s t : State} (hbusy : s.eng = .busy)
    (hd : decodeHT h = i) (hdrop : exec i s = .next s.dropWrite) (ht : exec (decodeCW s.pend) s = .next t) :
    runSteps 2 { s with inputs := .ht h :: .engine :: rest } = .next { t.dropWrite with inputs := rest } :=
  runSteps_two (step_ht_of_exec hd hdrop) (step_engine_of_exec (s := s.dropWrite) hbusy (exec_decodeCW_dropWrite ht))

/-- A completion, and the host's turn after it (R219). -/
theorem runSteps_complete_ht {h : HT} {i : Instr} {rest : List Event} {s t u : State} (hbusy : s.eng = .busy)
    (ht : exec (decodeCW s.pend) s = .next t) (hd : decodeHT h = i) (hu : exec i t = .next u) :
    runSteps 2 { s with inputs := .engine :: .ht h :: rest } = .next { u with inputs := rest } :=
  runSteps_two (step_engine_of_exec hbusy ht) (step_ht_of_exec hd hu)

theorem exec_decodeCW_eng {w : Word} {s t : State} (ht : exec (decodeCW w) s = .next t) : t.eng = .idle := by
  obtain rfl := Host.Outcome.next.inj ((exec_decodeCW w s).symm.trans ht)
  exact State.complete_eng _ _ _

/-- Settles O52: with the host first the write is dropped; with the ENGINE first the write finds it idle. -/
theorem writeAndCompletionInEitherOrder : Obligations.WriteAndCompletionInEitherOrder := by
  intro i v rest s hbusy
  have ht := exec_decodeCW s.pend s
  have hidle := exec_decodeCW_eng ht
  refine ⟨_, exec_withInputs ht rest, ?_, ?_, ?_⟩
  · rintro h (rfl | rfl)
    · exact runSteps_drop_complete hbusy (decodeHT_write_secbufW i v) (exec_secbufWr_busy hbusy i v) ht
    · exact runSteps_drop_complete hbusy (decodeHT_writeHT .cmd v) (exec_cmdWr_busy hbusy v) ht
  · exact runSteps_complete_ht hbusy ht (decodeHT_write_secbufW i v) (exec_secbufWr_idle hidle i v)
  · exact runSteps_complete_ht hbusy ht (decodeHT_writeHT .cmd v) (exec_cmdWr_idle hidle v)

end Sys2Proof.Machine
end

section
/-! The stream cipher by its keystream (41_section_cipher.md R130, R133) and the completions of ENCRYPT and of the error
words (R139, R140, R147 to R149); what every completion records, and that it overwrites what acceptance wrote. -/

namespace Sys2Proof.Machine

/-! ### The keystream (R133) -/

/-- The state of RC4 after n keystream bytes. -/
def rc4After : Nat → Rc4 → Rc4
  | 0, r => r
  | n + 1, r => (rc4Prga (rc4After n r)).1

/-- Byte n of the keystream from a state on. -/
def keystreamByte (r : Rc4) (n : Nat) : Byte := (rc4Prga (rc4After n r)).2

theorem rc4After_rc4Prga (r : Rc4) : ∀ n, rc4After n (rc4Prga r).1 = rc4After (n + 1) r
  | 0 => rfl
  | n + 1 => by rw [rc4After, rc4After_rc4Prga r n, ← rc4After]

/-- Byte n of the keystream does not depend on how many bytes are drawn. -/
theorem rc4Stream_getElem : ∀ {m n : Nat} (r : Rc4) (h : n < (rc4Stream m r).length),
    (rc4Stream m r)[n] = keystreamByte r n
  | 0, _, _, h => absurd h (Nat.not_lt_zero _)
  | _ + 1, 0, _, _ => rfl
  | m + 1, n + 1, r, h => by
    have ih := rc4Stream_getElem (rc4Prga r).1 (Nat.lt_of_succ_lt_succ h)
    rw [keystreamByte, rc4After_rc4Prga] at ih
    exact ih

/-- Each byte of the result is the byte of the input under its keystream byte. -/
theorem rc4_getElem (k d : Bytes) {n : Nat} (h : n < (rc4 k d).length) :
    (rc4 k d)[n] = d[n]'(rc4_length k d ▸ h) ^^^ keystreamByte (rc4Ksa k) n := by
  simp only [rc4, xorBytes, List.getElem_zipWith, rc4Stream_getElem]

/-- What the cipher adds at a position is the keystream byte, which the input does not enter. -/
theorem rc4_xor_getD (k d : Bytes) {n : Nat} (h : n < d.length) :
    (rc4 k d).getD n 0 ^^^ d.getD n 0 = keystreamByte (rc4Ksa k) n := by
  have hn : n < (rc4 k d).length := by rwa [rc4_length]
  rw [List.getD_eq_getElem _ _ hn, List.getD_eq_getElem _ _ h, rc4_getElem, BitVec.xor_comm, ← BitVec.xor_assoc,
    BitVec.xor_self, BitVec.zero_xor]

/-- Settles O41: the length and the involution are laws of `rc4`, and at every position the cipher adds the
keystream. -/
theorem streamCipherIsInvolution : Obligations.StreamCipherIsInvolution := fun k d e =>
  ⟨rc4_length k d, rc4_rc4 k d, fun _ hd he => (rc4_xor_getD k d hd).trans (rc4_xor_getD k e he).symm⟩

/-! ### ENCRYPT (R139, R147) -/

/-- Settles O42: the commit of `encryptFn`, whose tag and payload R139 gives. -/
theorem encryptCompletion : Obligations.EncryptCompletion := by
  intro g s hwf
  have hlen := s.secbuf.bytes_length
  obtain ⟨hout, htag, hpayload⟩ := encryptFn_spec (key := rootKey s.keyrom g) hlen
  rw [payloadOf_eq hlen] at htag hpayload
  rw [payloadOf_eq hout] at hpayload
  refine ⟨_, exec_encrypt g s, ?_, ?_, fun a ha => ?_, rfl⟩
  · rw [State.complete_secbuf, Memory.bytes_commit hwf hout]
    exact htag
  · rw [State.complete_secbuf, Memory.bytes_commit hwf hout, hpayload, ← htag]
    rfl
  · rw [State.complete_secbuf, Memory.read_outside ha hwf, Memory.read_outside ha (Memory.wf_commit hwf _)]

/-- A whole section committed over any memory gives the same memory. -/
theorem Memory.commit_congr {m m' : Memory} (hm : m.wf = true) (hm' : m'.wf = true) {out : Bytes}
    (ho : out.length = 48) : m.commit out = m'.commit out := by
  refine Memory.eq_of_read_eq (Memory.wf_commit hm out) (Memory.wf_commit hm' out) fun a => ?_
  rw [Memory.read_commit hm ho, Memory.read_commit hm' ho]
  split
  · rfl
  · rename_i ha
    rw [Memory.read_outside (Nat.le_of_not_lt ha) hm, Memory.read_outside (Nat.le_of_not_lt ha) hm']

/-- ENCRYPT_FN reads the payload alone (R139). -/
theorem encryptFn_congr {key sec sec' : Bytes} (h : payloadOf sec = payloadOf sec') :
    encryptFn key sec = encryptFn key sec' := by
  rw [encryptFn, encryptFn, h]

/-- Settles O43: both commit the same section over memories of the canonical form. -/
theorem encryptIgnoresOldTag : Obligations.EncryptIgnoresOldTag := by
  intro g s t hs ht hkeys hpayload
  rw [← payloadOf_eq s.secbuf.bytes_length, ← payloadOf_eq t.secbuf.bytes_length] at hpayload
  refine ⟨_, _, exec_encrypt g s, exec_encrypt g t, ?_⟩
  rw [State.complete_secbuf, State.complete_secbuf, hkeys, encryptFn_congr hpayload]
  exact Memory.commit_congr hs ht (encryptFn_spec t.secbuf.bytes_length).1

/-! ### Every completion (R140, R141) -/

/-- Settles O45: the two completions are `State.complete` alone. -/
theorem errorCompletions : Obligations.ErrorCompletions := fun _ _ s =>
  ⟨⟨_, rfl, s.forgetHidden_complete .invalidGeneration none⟩, ⟨_, rfl, s.forgetHidden_complete .illegalCommand none⟩⟩

/-- Settles O46, by `exec_decodeCW`: every completion is the record R140 of some outcome, which raises IRQ under IE. -/
theorem everyCompletionRecordsAndScrubs : Obligations.EveryCompletionRecordsAndScrubs := fun w s =>
  ⟨_, exec_decodeCW w s, rfl, rfl, rfl, Bool.and_true s.ie, rfl, rfl, rfl, rfl, rfl, rfl, rfl, rfl, rfl, rfl, rfl⟩

/-- The record of a completion overwrites PEND, ENG, DONE, ERR and RESGEN, all that acceptance writes (R135). -/
theorem State.complete_accept (s : State) (v : Word) (m : Memory) (e : ErrCode) (g : Option Gen) :
    { s.accept v with secbuf := m }.complete e g = { s with secbuf := m }.complete e g := rfl

/-- Settles O47: the outcome depends on SECBUF and KEYROM, which acceptance leaves, and the record overwrites the
rest. -/
theorem completionAfterAcceptanceIsCompletion : Obligations.CompletionAfterAcceptanceIsCompletion := by
  intro v w s
  rw [exec_decodeCW, exec_decodeCW]
  exact congrArg Host.Outcome.next (s.complete_accept v _ _ _)

end Sys2Proof.Machine
end

section
/-! The checksum unit in exact numbers (40_checksum.md R100 to R103): the fold, the accumulation and the trailing bytes;
the two procedures of R112, each as the loop of CHECKSUM at every point of its run; and that the unit and the rest of
the block change nothing of each other (R104). -/

namespace Sys2Proof.Machine

/-! ### The fold (R101, R103) -/

/-- The fold in exact numbers: the carry around the end does not overflow again (R103 (a)). -/
theorem ckFold_toNat (s c : Word) :
    (ckFold s c).toNat = (s.toNat + c.toNat) % 2 ^ 32 + (if 2 ^ 32 ≤ s.toNat + c.toNat then 1 else 0) := by
  have hs := s.isLt
  have hc := c.isLt
  rw [ckFold]
  simp only [ult_add_iff]
  split
  · simp only [BitVec.toNat_add, BitVec.ofNat_eq_ofNat, BitVec.toNat_ofNat]
    omega
  · rw [BitVec.toNat_add, Nat.add_zero]

theorem ckFold_eq_zero_iff (s c : Word) : ckFold s c = 0 ↔ s = 0 ∧ c = 0 := by
  have hs := s.isLt
  have hc := c.isLt
  simp only [← BitVec.toNat_inj, ckFold_toNat, BitVec.ofNat_eq_ofNat, BitVec.toNat_ofNat]
  split <;> omega

/-- Settles O35. -/
theorem foldIsExactEndAroundSum : Obligations.FoldIsExactEndAroundSum := fun s c =>
  ⟨ckFold_toNat s c, ckFold_eq_zero_iff s c⟩

/-! ### The accumulation (R100, R103) -/

/-- The accumulator's two words hold the exact sum T: T mod 2^32 and its carries, both mod 2^32 (R103 (c)). -/
def HoldsSum (sc : Word × Word) (T : Nat) : Prop := sc.1.toNat = T % 2 ^ 32 ∧ sc.2.toNat = T / 2 ^ 32 % 2 ^ 32

theorem holdsSum_zero : HoldsSum (0, 0) 0 := ⟨rfl, rfl⟩

theorem HoldsSum.ckAcc {sc : Word × Word} {T : Nat} (h : HoldsSum sc T) (w : Word) :
    HoldsSum (ckAcc sc.1 sc.2 w) (T + w.toNat) := by
  obtain ⟨hsum, hcarry⟩ := h
  have hw := w.isLt
  rw [ckAcc_eq, hsum]
  split
  all_goals
    simp only [HoldsSum, BitVec.toNat_add, BitVec.ofNat_eq_ofNat, BitVec.toNat_ofNat, hsum, hcarry]
    omega

theorem HoldsSum.foldl : ∀ {ws : List Word} {sc : Word × Word} {T : Nat}, HoldsSum sc T →
    HoldsSum (ws.foldl (fun sc w => Machine.ckAcc sc.1 sc.2 w) sc) (T + (ws.map BitVec.toNat).sum)
  | [], _, _, h => h
  | w :: ws, _, T, h => by
    rw [List.map_cons, List.sum_cons, ← Nat.add_assoc]
    exact (h.ckAcc w).foldl

/-- Settles O36, from the clear accumulator, which holds the sum 0. -/
theorem accumulationIsExactSum : Obligations.AccumulationIsExactSum := fun ws => by
  have h := holdsSum_zero.foldl (ws := ws)
  rwa [Nat.zero_add] at h

/-! ### CHECKSUM (R102) -/

/-- Word k of a byte string, little-endian; a missing byte counts as 0 (log entry 19). -/
def wordAt (data : Bytes) (k : Nat) : Word :=
  le32 (data.getD (4 * k) 0) (data.getD (4 * k + 1) 0) (data.getD (4 * k + 2) 0) (data.getD (4 * k + 3) 0)

theorem ckLoop_succ_wordAt (n : Nat) (data : Bytes) (sc : Word × Word) :
    ckLoop (n + 1) data sc = ckAcc (ckLoop n data sc).1 (ckLoop n data sc).2 (wordAt data n) :=
  ckLoop_succ n data sc

/-- Byte strings with a common beginning have its bytes in common. -/
theorem getD_eq_of_take_eq {a b : Bytes} {n i : Nat} (h : a.take n = b.take n) (hi : i < n) :
    a.getD i 0 = b.getD i 0 := by
  have hget := congrArg (·[i]?) h
  simp only [List.getElem?_take, if_pos hi] at hget
  rw [List.getD_eq_getElem?_getD, List.getD_eq_getElem?_getD, hget]

/-- The loop over n words reads the first 4n bytes alone. -/
theorem ckLoop_congr {a b : Bytes} {m : Nat} (h : a.take (4 * m) = b.take (4 * m)) (sc : Word × Word) :
    ∀ {n : Nat}, n ≤ m → ckLoop n a sc = ckLoop n b sc
  | 0, _ => rfl
  | n + 1, hn => by
    have hword : wordAt a n = wordAt b n := by
      simp only [wordAt]
      rw [getD_eq_of_take_eq h (by omega), getD_eq_of_take_eq h (i := 4 * n + 1) (by omega),
        getD_eq_of_take_eq h (i := 4 * n + 2) (by omega), getD_eq_of_take_eq h (i := 4 * n + 3) (by omega)]
    rw [ckLoop_succ_wordAt, ckLoop_succ_wordAt, ckLoop_congr h sc (Nat.le_of_succ_le hn), hword]

theorem checksum_eq (data : Bytes) (count : Nat) : checksum data count =
    ckFold (ckLoop (count / 4) data (0, 0)).1 (ckLoop (count / 4) data (0, 0)).2 := rfl

/-- Settles O37: CHECKSUM depends on its count by count / 4 alone. -/
theorem trailingBytesAreIgnored : Obligations.TrailingBytesAreIgnored := by
  intro data other q r hr
  have hq : (4 * q + r) / 4 = 4 * q / 4 := by omega
  refine ⟨by rw [checksum_eq, checksum_eq, hq], fun h => ?_, rfl⟩
  rw [checksum_eq, checksum_eq, ckLoop_congr h (0, 0) (by omega)]

/-! ### What the unit's operations leave (R104) -/

@[simp] theorem State.writeOkay_withoutCk (s : State) : s.writeOkay.withoutCk = s.withoutCk := rfl

@[simp] theorem State.accumulate_withoutCk (s : State) (w : Word) : (s.accumulate w).withoutCk = s.withoutCk := rfl

@[simp] theorem State.dropPending_withoutCk (s : State) : s.dropPending.withoutCk = s.withoutCk := by
  rw [State.dropPending_eq]
  rfl

@[simp] theorem State.pushLane_withoutCk (s : State) (b : Byte) : (s.pushLane b).withoutCk = s.withoutCk := by
  rcases s.pushLane_cases b with ⟨-, l, hpush⟩ | ⟨-, hpush⟩ <;> rw [hpush] <;> rfl

theorem exec_writeOp_withoutCk {r : Reg} (hr : checksumReg r = true) (v : Word) (s : State) :
    ∃ t, exec (writeOp v r) s = .next t ∧ t.withoutCk = s.withoutCk := by
  cases r with
  | ckPushw => exact ⟨_, exec_ckPushw v s, by simp⟩
  | ckPushb => exact ⟨_, exec_ckPushb v s, by simp⟩
  | ckCtrl => exact ⟨_, exec_ckClear v s, by split <;> rfl⟩
  | ckStat => exact ⟨_, exec_ckStatWr v s, rfl⟩
  | ckSum => exact ⟨_, exec_ckRoWr 0 v s, rfl⟩
  | ckCarry => exact ⟨_, exec_ckRoWr 1 v s, rfl⟩
  | ckResult => exact ⟨_, exec_ckRoWr 2 v s, rfl⟩
  | _ => cases hr

theorem exec_writeOp_ckView {r : Reg} (hr : checksumReg r = false) (v : Word) (s : State) :
    ∃ t, exec (writeOp v r) s = .next t ∧ t.ckView = s.ckView := by
  cases r with
  | secbufW i =>
    rcases State.idle_or_busy s with heng | heng
    · exact ⟨_, exec_secbufWr_idle heng i v, rfl⟩
    · exact ⟨_, exec_secbufWr_busy heng i v, rfl⟩
  | cmd =>
    rcases State.idle_or_busy s with heng | heng
    · exact ⟨_, exec_cmdWr_idle heng v, rfl⟩
    · exact ⟨_, exec_cmdWr_busy heng v, rfl⟩
  | status => exact ⟨_, exec_statusWr v s, rfl⟩
  | ctrl => exact ⟨_, exec_ctrlWr v s, rfl⟩
  | id => exact ⟨_, exec_idWr v s, rfl⟩
  | reserved o => exact ⟨_, exec_rsvWr o v s, rfl⟩
  | _ => cases hr

/-- Settles O40: a read changes the response alone; a write by its register; a completion is a record that does not name
the unit. -/
theorem checksumUnitIsIndependent : Obligations.ChecksumUnitIsIndependent := by
  intro s v w r
  obtain ⟨a, hread⟩ := exec_readOp r s
  exact ⟨fun hr => ⟨⟨_, hread, rfl⟩, exec_writeOp_withoutCk hr v s⟩,
    fun hr => ⟨⟨_, hread, rfl⟩, exec_writeOp_ckView hr v s⟩, _, exec_decodeCW w s, rfl⟩

/-! ### The two procedures (R112), as runs whose every turn is a push -/

/-- A run whose input begins with the first k events of an infinite input, from what the infinite one runs to. -/
theorem runSteps_of_runInput_beginning {input : InfiniteInput} {k : Nat} {s t : State} {rest : List Event}
    (hrun : runInput input k s = .next t) (hin : s.inputs = (List.range k).map input ++ rest) :
    runSteps k s = .next { t with inputs := rest } := by
  have h := runSteps_of_runInput hrun rest
  rwa [← hin] at h

theorem State.withoutCk_withInputs {s t : State} (h : t.withoutCk = s.withoutCk) (l : List Event) :
    ({ t with inputs := l } : State).withoutCk = ({ s with inputs := l } : State).withoutCk :=
  congrArg (fun u : State => { u with inputs := l }) h

theorem pushByte_setWidth (b : Byte) : pushByte (b.setWidth 32) = b := by
  have hb := b.isLt
  apply BitVec.eq_of_toNat_eq
  rw [pushByte_toNat, BitVec.toNat_setWidth]
  omega

theorem stepOn_byteEvent (b : Byte) (s : State) : stepOn (byteEvent b) s = .next (s.pushLane b).writeOkay := by
  have hd : decodeHT ⟨.write, 2, 0x44, b.setWidth 32⟩ = .ckPushb (b.setWidth 32) := decodeHT_writeHT .ckPushb _
  have hstep : stepOn (byteEvent b) s = exec (.ckPushb (b.setWidth 32)) s := by
    rw [← hd]
    exact step_ht rfl
  rw [hstep, exec_ckPushb, pushByte_setWidth]

theorem stepOn_wordEvent (data : Bytes) (k : Nat) (s : State) :
    stepOn (wordEvent data k) s = .next (s.dropPending.accumulate (wordAt data k)).writeOkay := by
  have hd : decodeHT ⟨.write, 2, 0x40, wordAt data k⟩ = .ckPushw (wordAt data k) := decodeHT_writeHT .ckPushw _
  have hstep : stepOn (wordEvent data k) s = exec (.ckPushw (wordAt data k)) s := by
    rw [← hd]
    exact step_ht rfl
  rw [hstep, exec_ckPushw]

/-- The checksum unit after 4q + r bytes, r < 4: q whole words are accumulated, the r bytes after them wait in the
lane. -/
structure BytesPushed (data : Bytes) (q r : Nat) (t : State) : Prop where
  words : (t.ckSum, t.ckCarry) = ckLoop q data (0, 0)
  count : t.ckBcnt.val = r
  byte0 : 1 ≤ r → t.ckBbuf.b0 = data.getD (4 * q) 0
  byte1 : 2 ≤ r → t.ckBbuf.b1 = data.getD (4 * q + 1) 0
  byte2 : 3 ≤ r → t.ckBbuf.b2 = data.getD (4 * q + 2) 0

section

variable {data : Bytes} {q r : Nat} {t : State}

/-- The response is no part of it. -/
theorem BytesPushed.writeOkay (h : BytesPushed data q r t) : BytesPushed data q r t.writeOkay := { h with }

/-- A byte that does not complete a word waits in the lane. -/
theorem BytesPushed.pushLane_waits (h : BytesPushed data q r t) (hr : r < 3) :
    BytesPushed data q (r + 1) (t.pushLane (data.getD (4 * q + r) 0)) := by
  obtain ⟨hwords, hcount, hb0, hb1, -⟩ := h
  obtain rfl | rfl | rfl : r = 0 ∨ r = 1 ∨ r = 2 := by omega
  · rw [State.pushLane_of_ckBcnt_zero (Fin.ext hcount)]
    exact ⟨hwords, rfl, fun _ => rfl, fun h => absurd h (by decide), fun h => absurd h (by decide)⟩
  · rw [State.pushLane_of_ckBcnt_one (Fin.ext hcount)]
    exact ⟨hwords, rfl, fun _ => hb0 (by decide), fun _ => rfl, fun h => absurd h (by decide)⟩
  · rw [State.pushLane_of_ckBcnt_two (Fin.ext hcount)]
    exact ⟨hwords, rfl, fun _ => hb0 (by decide), fun _ => hb1 (by decide), fun _ => rfl⟩

/-- The fourth byte completes a word with the three that wait. -/
theorem BytesPushed.pushLane_completes (h : BytesPushed data q 3 t) :
    BytesPushed data (q + 1) 0 (t.pushLane (data.getD (4 * q + 3) 0)) := by
  obtain ⟨hwords, hcount, hb0, hb1, hb2⟩ := h
  rw [State.pushLane_of_ckBcnt_three (Fin.ext hcount), hb0 (by decide), hb1 (by decide), hb2 (by decide)]
  refine ⟨?_, rfl, fun h => absurd h (by decide), fun h => absurd h (by decide), fun h => absurd h (by decide)⟩
  rw [ckLoop_succ_wordAt, ← hwords]
  rfl

end

/-- The next byte, whatever waits in the lane. -/
theorem BytesPushed.pushLane {data : Bytes} {n : Nat} {t : State} (h : BytesPushed data (n / 4) (n % 4) t) :
    BytesPushed data ((n + 1) / 4) ((n + 1) % 4) (t.pushLane (data.getD n 0)) := by
  have hn : 4 * (n / 4) + n % 4 = n := Nat.div_add_mod n 4
  by_cases hr : n % 4 < 3
  · have hpush := h.pushLane_waits hr
    rwa [hn, show n / 4 = (n + 1) / 4 by omega, show n % 4 + 1 = (n + 1) % 4 by omega] at hpush
  · have hlast : n % 4 = 3 := by omega
    rw [hlast] at h hn
    have hpush := h.pushLane_completes
    rwa [hn, show n / 4 + 1 = (n + 1) / 4 by omega, show 0 = (n + 1) % 4 by omega] at hpush

/-- A clear unit, and the n byte pushes from it. -/
theorem runInput_bytes {data : Bytes} {s : State} (hs : BytesPushed data 0 0 s) : ∀ n,
    ∃ t, runInput (fun k => byteEvent (data.getD k 0)) n s = .next t ∧ BytesPushed data (n / 4) (n % 4) t ∧
      t.ckDrop = s.ckDrop ∧ t.withoutCk = s.withoutCk
  | 0 => ⟨s, rfl, hs, rfl, rfl⟩
  | n + 1 => by
    obtain ⟨t, ht, hpushed, hdrop, hrest⟩ := runInput_bytes hs n
    exact ⟨_, (runInput_succ ht).trans (stepOn_byteEvent _ t), hpushed.pushLane.writeOkay,
      by simpa using hdrop, by simpa using hrest⟩

/-- The n word pushes from a clear unit. -/
theorem runInput_words {data : Bytes} {s : State} (hsum : s.ckSum = 0) (hcarry : s.ckCarry = 0)
    (hcount : s.ckBcnt = 0) : ∀ n, ∃ t, runInput (wordEvent data) n s = .next t ∧
      (t.ckSum, t.ckCarry) = ckLoop n data (0, 0) ∧ t.ckBcnt = 0 ∧ t.ckDrop = s.ckDrop ∧ t.withoutCk = s.withoutCk
  | 0 => ⟨s, rfl, by rw [hsum, hcarry]; rfl, hcount, rfl, rfl⟩
  | n + 1 => by
    obtain ⟨t, ht, hwords, hempty, hdrop, hrest⟩ := runInput_words hsum hcarry hcount n
    have hpending : t.dropPending = t := if_neg (not_not_intro hempty)
    refine ⟨_, (runInput_succ ht).trans (stepOn_wordEvent data n t), ?_, ?_, ?_, by simpa using hrest⟩
    all_goals rw [hpending]
    · rw [ckLoop_succ_wordAt, ← hwords]
      rfl
    · exact hempty
    · exact hdrop

/-- The bytes of a string in order, as the beginning of an infinite input. -/
theorem map_byteEvent_take {data : Bytes} {count : Nat} (h : count ≤ data.length) :
    (data.take count).map byteEvent = (List.range count).map fun k => byteEvent (data.getD k 0) := by
  apply List.ext_getElem
  · simp [h]
  · intro n h1 h2
    have hn : n < data.length := by simp at h1; omega
    simp [hn]

/-- Settles O38: after the pushes the whole words are accumulated, which is the loop of CHECKSUM. -/
theorem bytePushesComputeChecksum : Obligations.BytePushesComputeChecksum := by
  intro data count rest s hlen hsum hcarry hcount hin
  rw [map_byteEvent_take hlen] at hin
  have hclear : BytesPushed data 0 0 s := ⟨by rw [hsum, hcarry]; rfl, by rw [hcount]; rfl,
    fun h => absurd h (by decide), fun h => absurd h (by decide), fun h => absurd h (by decide)⟩
  obtain ⟨t, ht, hpushed, hdrop, hrest⟩ := runInput_bytes hclear count
  refine ⟨_, runSteps_of_runInput_beginning ht hin, ?_, hpushed.count, hdrop, State.withoutCk_withInputs hrest rest⟩
  rw [checksum_eq, ← hpushed.words]

/-- Settles O39: each push adds one word of the loop of CHECKSUM. -/
theorem wordPushesComputeChecksum : Obligations.WordPushesComputeChecksum := by
  intro data count rest s _ hsum hcarry hcount hin
  obtain ⟨t, ht, hwords, hempty, hdrop, hrest⟩ := runInput_words (data := data) hsum hcarry hcount (count / 4)
  refine ⟨_, runSteps_of_runInput_beginning ht hin, ?_, hempty, hdrop, State.withoutCk_withInputs hrest rest⟩
  rw [checksum_eq, ← hwords]

end Sys2Proof.Machine
end

section
/-! The internal sequence of a command (41_section_cipher.md R150), sub-phase by sub-phase on the hidden working state:
the stream sub-phases put the stream cipher's result into SCR, an attempt of a DECRYPT is 33 sub-phases, and every
command ends in the state of its atomic completion (R140), which scrubs what the sub-phases left (R141). -/

namespace Sys2Proof.Machine

/-! ### Runs of sub-phases -/

theorem runSub_add (j : Nat) : ∀ (k : Nat) (ps : SubPhase × State), runSub (k + j) ps = runSub j (runSub k ps)
  | 0, _ => by rw [Nat.zero_add]; rfl
  | k + 1, ps => by
    rw [Nat.add_right_comm]
    exact runSub_add j k _

theorem runSub_one (p : SubPhase) (s : State) : runSub 1 (p, s) = subStep p s := rfl

/-- A finished sequence stays as it is. -/
theorem runSub_finished : ∀ (k : Nat) (t : State), runSub k (.finished, t) = (.finished, t)
  | 0, _ => rfl
  | k + 1, t => runSub_finished k t

theorem runSub_of_finished {j k : Nat} {ps : SubPhase × State} {t : State} (h : runSub j ps = (.finished, t))
    (hjk : j ≤ k) : runSub k ps = (.finished, t) := by
  rw [← Nat.add_sub_of_le hjk, runSub_add, h, runSub_finished]

/-! ### The stream sub-phases -/

/-- What a stream sub-phase does to the hidden state over a memory. -/
def Work.stream (m : Memory) (n : Nat) (w : Work) : Work :=
  { w with
    rc4 := (rc4Prga w.rc4).1
    scr := w.scr.set (20 + n) (m.read (20 + n) ^^^ (rc4Prga w.rc4).2) }

/-- The hidden state after the first n stream sub-phases. -/
def Work.streamed (m : Memory) : Nat → Work → Work
  | 0, w => w
  | n + 1, w => (w.streamed m n).stream m n

theorem State.subStream_withWork (s : State) (w : Work) (n : Nat) :
    (s.withWork w).subStream n = s.withWork (w.stream s.secbuf n) := rfl

/-- What putting a tag before the payload does to the hidden state. -/
def Work.put (w : Work) (tag : Bytes) : Work := { w with scr := tag ++ w.scr.drop 20 }

/-- The stream sub-phases of either command, in order. -/
theorem runSub_stream {p : Nat → SubPhase}
    (hp : ∀ n s, n < 28 → subStep (p n) s = (p (n + 1), s.subStream n)) (s : State) (w : Work) :
    ∀ {n : Nat}, n ≤ 28 → runSub n (p 0, s.withWork w) = (p n, s.withWork (w.streamed s.secbuf n))
  | 0, _ => rfl
  | n + 1, hn => by
    rw [runSub_add, runSub_stream hp s w (Nat.le_of_succ_le hn), runSub_one, hp n _ hn, State.subStream_withWork]
    rfl

section

variable (m : Memory) (w : Work)

theorem Work.streamed_rc4 : ∀ n, (w.streamed m n).rc4 = rc4After n w.rc4
  | 0 => rfl
  | n + 1 => by rw [rc4After, ← Work.streamed_rc4 n]; rfl

theorem Work.streamed_ctag : ∀ n, (w.streamed m n).ctag = w.ctag
  | 0 => rfl
  | n + 1 => Work.streamed_ctag n

theorem Work.streamed_scr_succ (n : Nat) : (w.streamed m (n + 1)).scr =
    (w.streamed m n).scr.set (20 + n) (m.read (20 + n) ^^^ keystreamByte w.rc4 n) := by
  rw [keystreamByte, ← Work.streamed_rc4 m w]
  rfl

theorem Work.streamed_scr_length : ∀ n, (w.streamed m n).scr.length = w.scr.length
  | 0 => rfl
  | n + 1 => by rw [Work.streamed_scr_succ, List.length_set, Work.streamed_scr_length n]

/-- Byte a of SCR once its sub-phase is done. -/
theorem Work.streamed_scr_getElem {a : Nat} : ∀ {n : Nat}, a < n → (h : 20 + a < (w.streamed m n).scr.length) →
    (w.streamed m n).scr[20 + a] = m.read (20 + a) ^^^ keystreamByte w.rc4 a
  | n + 1, ha, h => by
    have hlen : 20 + a < (w.streamed m n).scr.length := by rwa [Work.streamed_scr_length] at h ⊢
    simp only [Work.streamed_scr_succ, List.getElem_set]
    split
    case isTrue heq =>
      obtain rfl : n = a := by omega
      rfl
    case isFalse hne => exact Work.streamed_scr_getElem (by omega) hlen

theorem payloadOf_bytes_getElem {n : Nat} (h : n < (payloadOf m.bytes).length) :
    (payloadOf m.bytes)[n] = m.read (20 + n) := by
  simp [payloadOf, Memory.bytes]

/-- After the 28 stream sub-phases from the schedule of a key, SCR's payload is the cipher's result (R133, R150). -/
theorem Work.drop_streamed_scr {k : Bytes} (hlen : w.scr.length = 48) (hk : w.rc4 = rc4Ksa k) :
    (w.streamed m 28).scr.drop 20 = Machine.rc4 k (payloadOf m.bytes) := by
  have hpayload : (payloadOf m.bytes).length = 28 := payloadOf_length m.bytes_length
  apply List.ext_getElem
  · rw [List.length_drop, Work.streamed_scr_length, rc4_length, hlen, hpayload]
  · intro n h1 h2
    rw [List.getElem_drop, Work.streamed_scr_getElem m w (by rw [rc4_length, hpayload] at h2; exact h2), rc4_getElem,
      payloadOf_bytes_getElem, hk]

end

/-! ### The attempts of a DECRYPT (R137, R138) -/

/-- The hidden state with the schedule of a seed, for an attempt at g. -/
def Work.keyed (w : Work) (g : Gen) (ctag seed : Bytes) : Work := ⟨w.scr, seed, ctag, attemptIndex g, rc4Ksa seed⟩

/-- An attempt up to its last stream sub-phase: SCR's payload is the candidate. -/
theorem runSub_candidate (s : State) {w : Work} (hlen : w.scr.length = 48) (g : Gen) :
    ∃ w' : Work, runSub 30 (.dSeed g, s.withWork w) = (.dStream g 28, s.withWork w') ∧ w'.scr.length = 48 ∧
      w'.scr.drop 20 = (attempt (rootKey s.keyrom g) s.secbuf.bytes).2 := by
  let u := w.keyed g w.ctag (hmac20 (rootKey s.keyrom g) (tagOf s.secbuf.bytes))
  have hkeyed : runSub 2 (.dSeed g, s.withWork w) = (.dStream g 0, s.withWork u) := rfl
  have hstream : ∀ n t, n < 28 → subStep (.dStream g n) t = (.dStream g (n + 1), t.subStream n) :=
    fun _ _ hn => if_pos hn
  refine ⟨u.streamed s.secbuf 28, ?_, (Work.streamed_scr_length s.secbuf u 28).trans hlen,
    Work.drop_streamed_scr s.secbuf u hlen rfl⟩
  rw [runSub_add 28 2, hkeyed, runSub_stream hstream s u (le_refl 28)]

/-- The end of an attempt: the candidate's tag, and the comparison. -/
theorem runSub_compare (s : State) (w : Work) (g : Gen) :
    ∃ w' : Work, w'.scr = w.scr ∧ runSub 3 (.dStream g 28, s.withWork w) =
      if hmac20 (rootKey s.keyrom g) (payloadOf w.scr) = tagOf s.secbuf.bytes then
        (.commit g, s.withWork (w'.put (tagOf s.secbuf.bytes)))
      else (afterFailed g, s.withWork w') :=
  ⟨{ w with ctag := hmac20 (rootKey s.keyrom g) (payloadOf w.scr) }, rfl, rfl⟩

/-- An attempt in 33 sub-phases: one that verifies puts the section together, and another goes on. -/
theorem runSub_attempt (s : State) {w : Work} (hlen : w.scr.length = 48) (g : Gen) :
    ∃ w₁ w₂ : Work, w₁.scr = tagOf s.secbuf.bytes ++ (attempt (rootKey s.keyrom g) s.secbuf.bytes).2 ∧
      w₂.scr.length = 48 ∧
      runSub 33 (.dSeed g, s.withWork w) =
        if (attempt (rootKey s.keyrom g) s.secbuf.bytes).1 = true then (.commit g, s.withWork w₁)
        else (afterFailed g, s.withWork w₂) := by
  obtain ⟨u, hrun, hulen, hcand⟩ := runSub_candidate s hlen g
  obtain ⟨w', hscr, hcompare⟩ := runSub_compare s u g
  rw [← hscr] at hulen hcand
  refine ⟨w'.put (tagOf s.secbuf.bytes), w', congrArg (_ ++ ·) hcand, hulen, ?_⟩
  rw [runSub_add 3 30, hrun, hcompare, ← hscr, payloadOf_eq hulen, hcand]
  exact if_congr beq_iff_eq.symm rfl rfl

/-- The completion of a DECRYPT that still has some generations to try (R138). -/
def State.completeTrial (s : State) (gs : List Gen) : State :=
  match trial (rootKey s.keyrom) s.secbuf.bytes gs with
  | some (g, out) => { s with secbuf := s.secbuf.commit out }.complete .ok (some g)
  | none => s.complete .verificationFailed none

theorem State.completeTrial_priorityOrder (s : State) : s.completeTrial priorityOrder = s.completeDecrypt := rfl

theorem State.completeTrial_nil (s : State) : s.completeTrial [] = s.complete .verificationFailed none := rfl

theorem State.completeTrial_cons (s : State) (g : Gen) (gs : List Gen) : s.completeTrial (g :: gs) =
    if (Machine.attempt (rootKey s.keyrom g) s.secbuf.bytes).1 = true then
      { s with
        secbuf := s.secbuf.commit (tagOf s.secbuf.bytes ++ (Machine.attempt (rootKey s.keyrom g) s.secbuf.bytes).2)
      }.complete .ok (some g)
    else s.completeTrial gs := by
  unfold State.completeTrial
  rw [trial]
  by_cases hok : (Machine.attempt (rootKey s.keyrom g) s.secbuf.bytes).1 = true
  · rw [if_pos hok, if_pos hok]
  · rw [if_neg hok, if_neg hok]

theorem subStep_commit (s : State) (w : Work) (g : Gen) : subStep (.commit g) (s.withWork w) =
    (.finished, { s with secbuf := s.secbuf.commit w.scr }.complete .ok (some g)) := rfl

theorem subStep_abandon (s : State) (w : Work) (e : ErrCode) :
    subStep (.abandon e) (s.withWork w) = (.finished, s.complete e none) := rfl

theorem runSub_abandon (s : State) (e : ErrCode) :
    runSub subBound (.abandon e, s) = (.finished, s.complete e none) :=
  runSub_of_finished ((runSub_one _ _).trans (subStep_abandon s s.work e)) (by decide)

/-- The sub-phases of one more generation, in front of those that complete the trial of the others. -/
theorem runSub_trial_cons {s : State} {g : Gen} {gs : List Gen} {k : Nat} (hk : 1 ≤ k)
    (hnext : ∀ w : Work, w.scr.length = 48 → runSub k (afterFailed g, s.withWork w) = (.finished, s.completeTrial gs))
    {w : Work} (hlen : w.scr.length = 48) :
    runSub (33 + k) (.dSeed g, s.withWork w) = (.finished, s.completeTrial (g :: gs)) := by
  obtain ⟨w₁, w₂, hverified, hfailed, hattempt⟩ := runSub_attempt s hlen g
  rw [runSub_add, hattempt, State.completeTrial_cons]
  split
  · refine runSub_of_finished ?_ hk
    rw [runSub_one, subStep_commit, hverified]
  · exact hnext w₂ hfailed

/-- The sequence of a DECRYPT: three attempts at most, and COMMIT. -/
theorem runSub_decrypt {s : State} {w : Work} (hlen : w.scr.length = 48) :
    runSub subBound (.dSeed .gen1, s.withWork w) = (.finished, s.completeDecrypt) := by
  have hfail : ∀ w : Work, w.scr.length = 48 →
      runSub 1 (afterFailed .gen3, s.withWork w) = (.finished, s.completeTrial []) := fun w _ => by
    rw [runSub_one, afterFailed, subStep_abandon, State.completeTrial_nil]
  have hgen3 := fun (w : Work) hw => runSub_trial_cons (w := w) (by decide) hfail hw
  have hgen2 := fun (w : Work) hw => runSub_trial_cons (w := w) (g := .gen2) (by decide) hgen3 hw
  rw [← State.completeTrial_priorityOrder]
  exact runSub_trial_cons (g := .gen1) (by decide) hgen2 hlen

/-! ### The sequence of an ENCRYPT (R139) -/

/-- E.PUT, after the last stream sub-phase. -/
theorem runSub_put (s : State) (w : Work) (g : Gen) :
    runSub 2 (.eStream g 28, s.withWork w) = (.commit g, s.withWork (w.put w.ctag)) := rfl

/-- The sequence of an ENCRYPT: the tag, the cipher over the payload under the tag's seed, and COMMIT. -/
theorem runSub_encrypt {s : State} {w : Work} (hlen : w.scr.length = 48) (g : Gen) :
    runSub 34 (.eTag g, s.withWork w) = (.finished,
      { s with secbuf := s.secbuf.commit (encryptFn (rootKey s.keyrom g) s.secbuf.bytes) }.complete .ok (some g)) := by
  let tag := hmac20 (rootKey s.keyrom g) (payloadOf s.secbuf.bytes)
  let u := w.keyed g tag (hmac20 (rootKey s.keyrom g) tag)
  have hkeyed : runSub 3 (.eTag g, s.withWork w) = (.eStream g 0, s.withWork u) := rfl
  have hstream : ∀ n t, n < 28 → subStep (.eStream g n) t = (.eStream g (n + 1), t.subStream n) :=
    fun _ _ hn => if_pos hn
  have hout : ((u.streamed s.secbuf 28).put (u.streamed s.secbuf 28).ctag).scr =
      encryptFn (rootKey s.keyrom g) s.secbuf.bytes := by
    rw [Work.put, Work.drop_streamed_scr s.secbuf u hlen rfl, Work.streamed_ctag]
    rfl
  rw [runSub_add 31 3, hkeyed, runSub_add 3 28, runSub_stream hstream s u (le_refl 28), runSub_add 1 2, runSub_put,
    runSub_one, subStep_commit, hout]

/-! ### Every command -/

/-- Settles O49, by the cases of the command word: the trials of a DECRYPT, the sequence of an ENCRYPT, or COMMIT(fail)
at once. -/
theorem internalSequenceRefinesCompletion : Obligations.InternalSequenceRefinesCompletion := by
  intro s hlen
  rcases decodeCW_cases s.pend with h | ⟨g, h⟩ | ⟨c, h⟩ | h
  all_goals rw [firstSub, h]
  · exact ⟨_, runSub_decrypt (w := s.work) hlen, exec_decrypt s⟩
  · exact ⟨_, runSub_of_finished (runSub_encrypt (w := s.work) hlen g) (by decide), exec_encrypt g s⟩
  · exact ⟨_, runSub_abandon s .invalidGeneration, rfl⟩
  · exact ⟨_, runSub_abandon s .illegalCommand, rfl⟩

end Sys2Proof.Machine
end
